-- ==== Sys2Proof/Word.lean ====
section
/-!
DEFINITION. The words the core moves: a byte, a 16-bit command word or checksum, a 32-bit consumer
code (00_scope.md R8, R11; 30_encoding.md R90).
-/
namespace Sys2Proof

/-- A byte, 0 to 255 (00_scope.md R11). -/
abbrev Byte := BitVec 8

/-- A command word (30_encoding.md R90), or a checksum (40_crc.md R120). -/
abbrev Word := BitVec 16

/-- A consumer acceptance code: `CODE_W = 32` bits, two's complement, where nonzero means any bit
pattern but all zeros (00_scope.md R8, R11). -/
abbrev Code := BitVec 32

end Sys2Proof
end

