-- ==== Sys2Proof/Config.lean ====
section
/-!
DEFINITION. What an implementation fixes (the parameters of 00_scope.md R8) and what the manual
leaves to the collaborators: opaque draws with no body, so that a proof holds for every value.
-/
namespace Sys2Proof

/-- The OPEN parameters of 00_scope.md R8. They are fixed before reset and no command changes them
(70_reset_and_hazards.md R274). State carries them as plain data, so that a statement about every
state is about every configuration (log 1). -/
structure Params where
  /-- `BUF_SIZE`: bytes in one frame buffer, header included. -/
  bufSize : Nat
  /-- `HDR_LEN`: minimum frame header length. -/
  hdrLen : Nat
  /-- `MRU`: maximum receive unit. -/
  mru : Nat
  /-- `BUF_ID_W`: width of a frame-buffer handle. -/
  bufIdW : Nat
  /-- `OUT_ID_W`: width of an output-buffer handle. -/
  outIdW : Nat
  /-- `N_INST`: number of core instances. -/
  nInst : Nat
  /-- `INST_ID`: this instance's number, sent as the context of its deliveries. -/
  instId : Nat
  /-- `TAG_INIT`: the value the decoder writes to the tag byte. -/
  tagInit : Byte
deriving DecidableEq, Repr

/-- The consumer's side of one delivery (30_encoding.md R99, 60_exceptions.md R256). -/
inductive ConsumerAnswer where
  /-- Its code. A buffer it accepted with code 0 is still its own when the command ends. -/
  | code (c : Code)
  /-- Code 0, and the consumer gives the buffer it accepted back to the pool before the pool answers
  the `Acquire()` that follows: it may "release that buffer" (60_exceptions.md R256). -/
  | acceptAndRelease
  /-- No answer ever (70_reset_and_hazards.md R280). -/
  | silent
deriving DecidableEq, Repr, Inhabited

/-- An allocator's side of `Acquire()` or `OutAlloc()`: a handle, FAIL, or no answer ever
(30_encoding.md R100, R101; 70_reset_and_hazards.md R280). -/
inductive AllocAnswer where
  | ok (h : Nat)
  | fail
  | silent
deriving DecidableEq, Repr, Inhabited

/-- The consumer's answer at the `k`-th draw: any answer at all (93_implementation_defined.md I9,
I13). A free value; log 5. -/
opaque Config.consumerDraw : Nat → ConsumerAnswer

/-- The pool's answer at the `k`-th draw (93_implementation_defined.md I7, I13). A free value; log 5. -/
opaque Config.poolDraw : Nat → AllocAnswer

/-- The output allocator's answer at the `k`-th draw (93_implementation_defined.md I8, I13). A free
value; log 5. -/
opaque Config.outDraw : Nat → AllocAnswer

/-- `TAG_INIT` of the configuration `State.reset` holds: transport-specific, no value given
(00_scope.md R8, R10; 91_not_in_source.md N5). Opaque; log 2. -/
opaque Config.tagInit : Byte

end Sys2Proof
end

