-- ==== Sys2Proof/Syntax.lean ====
section
/-!
DEFINITION. The six commands of the opcode map (30_encoding.md R94), their mnemonics, and the two
pseudo-instructions (R103, R104).
-/
namespace Sys2Proof

/-- One constructor per row of spec/opcode_table.json. The only operand is the byte `IMM8`
(30_encoding.md R93), so every term is well-formed by its type. -/
inductive Instr where
  /-- `DEC_RESET`: the source's `reset(state)` (41_decoder.md R142). -/
  | decReset
  /-- `DEC_BYTE b`: consume one raw wire byte (41_decoder.md R143). -/
  | decByte (b : Byte)
  /-- `DEC_END`: close one decode call and return its status (41_decoder.md R160). -/
  | decEnd
  /-- `ENC_CLEAR`: empty the input staging (42_encoder.md R191). -/
  | encClear
  /-- `ENC_LOAD b`: append one unescaped frame byte to the staging (42_encoder.md R192). -/
  | encLoad (b : Byte)
  /-- `ENC_FRAME`: encode the staged frame (42_encoder.md R193). -/
  | encFrame
deriving DecidableEq, Repr

/-- The mnemonic as the opcode map spells it (30_encoding.md R94). -/
def Instr.mnemonic : Instr → String
  | .decReset => "DEC_RESET"
  | .decByte _ => "DEC_BYTE"
  | .decEnd => "DEC_END"
  | .encClear => "ENC_CLEAR"
  | .encLoad _ => "ENC_LOAD"
  | .encFrame => "ENC_FRAME"

/-- The pseudo-instruction `DECODE b1, ..., bk` (30_encoding.md R103). -/
def decodeCall (bytes : List Byte) : List Instr :=
  bytes.map Instr.decByte ++ [Instr.decEnd]

/-- The pseudo-instruction `ENCODE b1, ..., bn` (30_encoding.md R104). -/
def encodeCall (bytes : List Byte) : List Instr :=
  Instr.encClear :: (bytes.map Instr.encLoad ++ [Instr.encFrame])

end Sys2Proof
end

