-- ==== Sys2Proof/WellFormed.lean ====
section
/-!
DEFINITION. What is well-formed: a configuration (00_scope.md R8) and a command word (30_encoding.md
R94, R95). A term of Instr needs no check: its only operand is a byte by its type (R93).
-/
namespace Sys2Proof

/-- The bounds 00_scope.md R8 puts on the parameters. The first is `BUF_SIZE >= HDR_RES + 1` with
`HDR_RES = 8`; the last is `INST_ID` in `0 .. N_INST-1`. -/
abbrev Params.wf (p : Params) : Prop :=
  9 ≤ p.bufSize ∧ 1 ≤ p.mru ∧ 1 ≤ p.bufIdW ∧ 1 ≤ p.outIdW ∧ 1 ≤ p.nInst ∧ p.instId < p.nInst

/-- One row of the opcode map: its mnemonic, match and mask (30_encoding.md R94). -/
structure OpRow where
  mnemonic : String
  pattern : Word
  mask : Word
deriving DecidableEq, Repr

/-- The opcode map of 30_encoding.md R94, row by row. -/
def opcodeMap : List OpRow :=
  [⟨"DEC_RESET", 0x1000#16, 0xFFFF#16⟩,
   ⟨"DEC_BYTE", 0x2000#16, 0xFF00#16⟩,
   ⟨"DEC_END", 0x3000#16, 0xFFFF#16⟩,
   ⟨"ENC_CLEAR", 0x4000#16, 0xFFFF#16⟩,
   ⟨"ENC_LOAD", 0x5000#16, 0xFF00#16⟩,
   ⟨"ENC_FRAME", 0x6000#16, 0xFFFF#16⟩]

/-- "A word `w` selects a row when `(w & mask) = match`" (30_encoding.md R94). -/
def OpRow.selectedBy (r : OpRow) (w : Word) : Bool :=
  w &&& r.mask == r.pattern

/-- A command word some row of the opcode map selects; every other word is illegal (30_encoding.md
R95). -/
def legalWord (w : Word) : Bool :=
  opcodeMap.any (·.selectedBy w)

end Sys2Proof
end

