-- ==== Sys2Proof/Decode.lean ====
section
/-!
DEFINITION. From a 16-bit command word to an instruction or a named refusal, and back (30_encoding.md
R90 to R96). Total on every word.
-/
namespace Sys2Proof

/-- Why a word is illegal (30_encoding.md R95). Each raises the same fault `ILLEGAL_CMD`. -/
inductive IllegalWord where
  /-- `RSV` is not zero. -/
  | reservedBits
  /-- A command without operand whose `IMM8` is not zero. -/
  | unusedOperand
  /-- `OP` is `0x0` or in `0x7 .. 0xF`. -/
  | reservedOpcode
deriving DecidableEq, Repr

/-- `OP = cmd[15:12]` (30_encoding.md R91). -/
def opField (w : Word) : BitVec 4 := w.extractLsb' 12 4

/-- `RSV = cmd[11:8]` (30_encoding.md R92). -/
def rsvField (w : Word) : BitVec 4 := w.extractLsb' 8 4

/-- `IMM8 = cmd[7:0]`, taken as is (30_encoding.md R93). -/
def immField (w : Word) : Byte := w.extractLsb' 0 8

/-- The decoding half of `Dispatch(w)`, in its order of checks (30_encoding.md R96). -/
def decode (w : Word) : Except IllegalWord Instr :=
  if rsvField w ≠ 0#4 then .error .reservedBits
  else if opField w = 0x2#4 then .ok (.decByte (immField w))
  else if opField w = 0x5#4 then .ok (.encLoad (immField w))
  else if immField w ≠ 0x00#8 then .error .unusedOperand
  else if opField w = 0x1#4 then .ok .decReset
  else if opField w = 0x3#4 then .ok .decEnd
  else if opField w = 0x4#4 then .ok .encClear
  else if opField w = 0x6#4 then .ok .encFrame
  else .error .reservedOpcode

/-- The operation code of an instruction (30_encoding.md R94). -/
def opOf : Instr → BitVec 4
  | .decReset => 0x1#4
  | .decByte _ => 0x2#4
  | .decEnd => 0x3#4
  | .encClear => 0x4#4
  | .encLoad _ => 0x5#4
  | .encFrame => 0x6#4

/-- The operand byte of an instruction, `0x00` where it takes none (30_encoding.md R93, R94). -/
def immOf : Instr → Byte
  | .decByte b => b
  | .encLoad b => b
  | .decReset | .decEnd | .encClear | .encFrame => 0x00#8

/-- The command word of an instruction: `oooo 0000 iiii iiii` (30_encoding.md R90). -/
def encode (i : Instr) : Word :=
  opOf i ++ (0x0#4 ++ immOf i : BitVec 12)

/-- The instruction the decoder reads from a table row's bits. A command is ONE 16-bit transfer and
has no byte order (20_memory.md R71), so the table's bits 15 to 0 are the word itself; more than 16
bits are no command. -/
def decodeTableWord (nbits w : Nat) : Option Instr :=
  if nbits ≤ 16 then
    match decode (BitVec.ofNat 16 w) with
    | .ok i => some i
    | .error _ => none
  else none

end Sys2Proof
end

