-- ==== Sys2Proof/Machine/Assoc.lean ====
section
/-!
DEFINITION. Sparse data by key: a list of (key, value) pairs with strictly rising keys. Memories and
ownership maps are such lists; an unlisted key has no value.
-/
namespace Sys2Proof.Machine

/-- The value at key `a`, if the list holds one. -/
def Assoc.lookup {α : Type} : List (Nat × α) → Nat → Option α
  | [], _ => none
  | (k, v) :: rest, a => if k = a then some v else Assoc.lookup rest a

/-- Sets the value at key `a`, in its place in the order. -/
def Assoc.insert {α : Type} : List (Nat × α) → Nat → α → List (Nat × α)
  | [], a, x => [(a, x)]
  | (k, v) :: rest, a, x =>
    if a < k then (a, x) :: (k, v) :: rest
    else if a = k then (a, x) :: rest
    else (k, v) :: Assoc.insert rest a x

/-- Removes every key in `lo .. lo + n - 1`. -/
def Assoc.removeRange {α : Type} (m : List (Nat × α)) (lo n : Nat) : List (Nat × α) :=
  m.filter fun e => e.1 < lo || lo + n ≤ e.1

/-- The canonical form: keys strictly rising. -/
abbrev Assoc.Sorted {α : Type} (m : List (Nat × α)) : Prop :=
  (m.map Prod.fst).Pairwise (· < ·)

end Sys2Proof.Machine
end

