-- ==== Sys2Proof/Machine/Params.lean ====
section
/-!
DEFINITION. The fixed wire constants (00_scope.md R7) and the sizes derived from the parameters
(00_scope.md R8, R9).
-/
namespace Sys2Proof.Machine

/-- `FLAG` (00_scope.md R7). -/
def flag : Byte := 0x7E#8

/-- `ESC` (00_scope.md R7). -/
def escByte : Byte := 0x7D#8

/-- `MASK` (00_scope.md R7). -/
def maskByte : Byte := 0x20#8

/-- `CTRL_LIMIT`: bytes below it are escaped by the encoder (00_scope.md R7). -/
def ctrlLimit : Byte := 0x20#8

/-- `FCS_LEN` (00_scope.md R7). -/
def fcsLen : Nat := 2

/-- `FCS_INIT` (00_scope.md R7). -/
def fcsInit : Word := 0xFFFF#16

/-- `GOOD_FCS`, corrected from the source's literal (00_scope.md R7, 90_conflicts.md C1). -/
def goodFcs : Word := 0xF0B8#16

/-- `POLY` (00_scope.md R7). -/
def poly : Word := 0x8408#16

/-- `HDR_RES`: the reserved header region of a frame buffer (00_scope.md R7, 20_memory.md R61). -/
def hdrRes : Nat := 8

/-- The offset of the tag byte, the byte just before the writable area (20_memory.md R62). -/
def tagOffset : Nat := hdrRes - 1

end Sys2Proof.Machine

/-- `CAP = BUF_SIZE - HDR_RES` (00_scope.md R8). -/
def Sys2Proof.Params.cap (p : Sys2Proof.Params) : Nat :=
  p.bufSize - Sys2Proof.Machine.hdrRes

/-- `OUT_CAP = (MRU + HDR_LEN + FCS_LEN) * 2 + 1` (00_scope.md R8, 90_conflicts.md C2). -/
def Sys2Proof.Params.outCap (p : Sys2Proof.Params) : Nat :=
  (p.mru + p.hdrLen + Sys2Proof.Machine.fcsLen) * 2 + 1

/-- `ENC_IN_MAX = OUT_CAP` (00_scope.md R8). -/
def Sys2Proof.Params.encInMax (p : Sys2Proof.Params) : Nat :=
  p.outCap

/-- `LEN_W`: the least integer with `2^LEN_W > max(CAP, OUT_CAP, ENC_IN_MAX)` (00_scope.md R9). -/
def Sys2Proof.Params.lenW (p : Sys2Proof.Params) : Nat :=
  Nat.log2 (max p.cap (max p.outCap p.encInMax)) + 1
end

