-- ==== Sys2Proof/Machine/State.lean ====
section
/-!
DEFINITION. The state of one core instance with its buffers and their owners, the collaborators'
answers to come, and what the core has sent; the reasons a step can stop; the state after reset.
-/
namespace Sys2Proof.Machine

/-- Bytes by address, addresses strictly rising. An unlisted address has no value: a byte nobody has
written "reads as any value" (20_memory.md R65; log 8). -/
abbrev Memory := List Host.Cell

/-- The sticky register `FAULT` (10_state.md R44); `FaultCode.bits` gives its 2-bit value. The encoding 3
is never written and has no constructor (log 9). -/
inductive FaultCode where
  | none
  | illegalCmd
  | allocFail
deriving DecidableEq, Repr

/-- The owner of a frame buffer other than `POOL`; an unlisted handle is `POOL`'s (10_state.md R46). -/
inductive FrameOwner where
  | dec
  | consumer
deriving DecidableEq, Repr

/-- The owner of an output buffer other than `POOL`; an unlisted handle is `POOL`'s (10_state.md R46). -/
inductive OutOwner where
  | enc
  | host
deriving DecidableEq, Repr

/-- Whose answer a hung command waits for (70_reset_and_hazards.md R280). -/
inductive Waiting where
  | consumer
  | pool
  | outAllocator
deriving DecidableEq, Repr

/-- `ENC_RESULT.est` (30_encoding.md R97, 60_exceptions.md R238); `EncStatus.bits` gives its 2-bit
value. -/
inductive EncStatus where
  | ok
  | einval
  | emsgsize
deriving DecidableEq, Repr

/-- The response that ends a command (30_encoding.md R97); `Response.record` gives it in the spec's
numbers. `oh = none` is a response that carries no handle (log 18). -/
inductive Response where
  | ack
  | status (code : Code)
  | encResult (est : EncStatus) (olen : Nat) (oh : Option Nat)
  | faulted (reason : FaultCode)
deriving DecidableEq, Repr

/-- What the core puts on its ports: responses (30_encoding.md R97) and messages to its collaborators
with their answers (R99, R100, R101). -/
inductive Event where
  | response (r : Response)
  /-- `Deliver(ctx, h, n)`. `seen` is what the consumer finds in the buffer: the tag byte, then the
  `n` bytes of the frame. -/
  | deliver (ctx h n : Nat) (seen : List (Option Byte)) (answer : ConsumerAnswer)
  | acquire (answer : AllocAnswer)
  | outAlloc (answer : AllocAnswer)
  | outRelease (o : Nat)
deriving DecidableEq, Repr

/-- What another party does between two commands. -/
inductive Action where
  /-- Hardware reset of the core together with its pool (70_reset_and_hazards.md R270, R271). -/
  | hardwareReset
  /-- The consumer writes a byte of a buffer it owns (60_exceptions.md R256). -/
  | consumerWrite (h off : Nat) (v : Byte)
  /-- The consumer gives an accepted buffer back to the pool (30_encoding.md R100, 60_exceptions.md
  R256). -/
  | consumerRelease (h : Nat)
  /-- The host gives an output buffer back to its allocator (60_exceptions.md R257). -/
  | hostRelease (o : Nat)
deriving DecidableEq, Repr

/-- What the core's environment does next: a command word on the command port (30_encoding.md R90),
or an action of another party. -/
inductive Input where
  | command (w : Word)
  | action (a : Action)
deriving DecidableEq, Repr

/-- Why the model stops with a fault. The core's own faults are no such stop: they are next states
that write `FAULT` (60_exceptions.md R233). -/
inductive Fault where
  /-- Raised by a write to an offset a frame buffer does not have (20_memory.md R60). The core's own
  writes raise it in no reachable state (R64). A consumer's write of such an offset of a buffer it
  owns raises it too, from any state: DESIGN CHOICE, log 19. Safe: nothing is proved past it. -/
  | frameBufferBounds (h off : Nat)
deriving DecidableEq, Repr

/-- Why the model gives a situation no meaning. Each but the first is a duty another party broke,
which 93_implementation_defined.md says to refuse. -/
inductive Refusal where
  /-- Raised by an arm of `exec` whose instruction has no meaning yet. Safe. -/
  | notModelled (mnemonic : String)
  /-- Raised by a command issued before the previous one has its response (70_reset_and_hazards.md
  R275; I14), and by one issued to an instance whose hardware reset still waits for the pool (DESIGN
  CHOICE). Unsafe for hosts that issue such a command; log 11. -/
  | overlappingCommand
  /-- Raised by an allocator's scripted answer with a handle somebody owns or with no such handle
  (60_exceptions.md R255, R257; I18). Unsafe for allocators that break the duty; log 6. -/
  | notOwnedByPool (h : Nat)
  /-- Raised by the consumer or the host using a buffer that is not theirs (70_reset_and_hazards.md
  R276, R279; I15, I16). Unsafe for parties that break the duty; log 17. -/
  | notOwnedByActor (h : Nat)
deriving DecidableEq, Repr

/-- One core instance and what it reaches. -/
structure State where
  /-- The parameters (00_scope.md R8). -/
  cfg : Params
  /-- `FAULT` (10_state.md R44). -/
  fault : FaultCode
  /-- `DEC.buf` (10_state.md R34). It names the decoder's buffer while `fbOwner` says so (log 12). -/
  decBuf : Nat
  /-- `DEC.len` (10_state.md R33). -/
  decLen : Nat
  /-- `DEC.esc` (10_state.md R35). -/
  decEsc : Bool
  /-- `DEC.discard` (10_state.md R36). -/
  decDiscard : Bool
  /-- `DEC.crc` (10_state.md R37). -/
  decCrc : Word
  /-- `DEC.pend` (10_state.md R38). -/
  decPend : Code
  /-- `ENC.n` (10_state.md R41). -/
  encN : Nat
  /-- `ENC.in`, `ENC_IN_MAX` bytes (10_state.md R42). -/
  encIn : List Byte
  /-- `ENC.ovf` (10_state.md R43). -/
  encOvf : Bool
  /-- The frame buffers; byte `off` of `FB(h)` is at `h * BUF_SIZE + off` (20_memory.md R60; log 7). -/
  fb : Memory
  /-- The output buffers; byte `off` of `OB(o)` is at `o * OUT_CAP + off` (20_memory.md R60; log 7). -/
  ob : Memory
  /-- The owner of every frame buffer that is not the pool's, handles rising (10_state.md R46). -/
  fbOwner : List (Nat × FrameOwner)
  /-- The owner of every output buffer that is not the pool's, handles rising (10_state.md R46). -/
  obOwner : List (Nat × OutOwner)
  /-- The collaborator a hung command, or a hung hardware reset, waits for (70_reset_and_hazards.md
  R280; log 10). -/
  wait : Option Waiting
  /-- The model's own: what the environment does next, oldest first (log 13). -/
  inputs : List Input
  /-- The model's own: the consumer's next answers, oldest first (log 5). -/
  codes : List ConsumerAnswer
  /-- The model's own: the pool's next answers, oldest first (log 5). -/
  acquires : List AllocAnswer
  /-- The model's own: the output allocator's next answers, oldest first (log 5). -/
  outAllocs : List AllocAnswer
  /-- The model's own: how many free draws have been made (log 5). -/
  draws : Nat
  /-- The model's own: what the core has sent, newest first (log 14). -/
  trace : List Event
deriving DecidableEq, Repr

/-- The configuration `State.reset` holds: 00_scope.md R10, with 8-bit handles and the opaque tag
(log 1, log 2). -/
def resetParams : Params :=
  { bufSize := 24, hdrLen := 4, mru := 12, bufIdW := 8, outIdW := 8, nInst := 1, instId := 0,
    tagInit := Config.tagInit }

/-- The machine right after a hardware reset whose `Acquire()` answered handle 0 (10_state.md R49,
70_reset_and_hazards.md R270; log 3, log 4). -/
def State.reset : State :=
  { cfg := resetParams
    fault := .none
    decBuf := 0
    decLen := 0
    decEsc := false
    decDiscard := false
    decCrc := fcsInit
    decPend := 0
    encN := 0
    encIn := List.replicate 37 0x00#8
    encOvf := false
    fb := [(tagOffset, Config.tagInit)]
    ob := []
    fbOwner := [(0, .dec)]
    obOwner := []
    wait := none
    inputs := []
    codes := []
    acquires := []
    outAllocs := []
    draws := 0
    trace := [] }

end Sys2Proof.Machine
end

