-- ==== Sys2Proof/Machine/Ops.lean ====
section
/-!
DEFINITION. The named operations the meanings share: memory, ownership, events and responses, raising
a fault, the dispatch check every command starts with, and the exchanges with the collaborators.
-/
namespace Sys2Proof.Machine

/-- The outcome of a meaning or a step. -/
abbrev Result := Host.Outcome State Fault Refusal

/-- Runs `k` on the next state of `r`; a fault or a refusal ends the run. -/
def andThen (r : Result) (k : State → Result) : Result :=
  match r with
  | .next s => k s
  | .fault e => .fault e
  | .refused e => .refused e

/-! ## Memory -/

/-- The byte at address `a`; `none` is a byte nobody has written, which "reads as any value"
(20_memory.md R65; log 8). -/
def Memory.read (m : Memory) (a : Nat) : Option Byte :=
  Assoc.lookup m a

/-- Writes one byte (20_memory.md R73). -/
def Memory.write (m : Memory) (a : Nat) (v : Byte) : Memory :=
  Assoc.insert m a v

/-- Makes `n` bytes from address `lo` unwritten again: a buffer fresh from its allocator "holds
unspecified contents" (20_memory.md R65). -/
def Memory.forget (m : Memory) (lo n : Nat) : Memory :=
  Assoc.removeRange m lo n

/-- The canonical form of a memory: addresses strictly rising. -/
abbrev Memory.wf (m : Memory) : Prop :=
  Assoc.Sorted m

/-- The address of byte `off` of `FB(h)` (20_memory.md R60; log 7). -/
def fbAddr (p : Params) (h off : Nat) : Nat :=
  h * p.bufSize + off

/-- The address of byte `off` of `OB(o)` (20_memory.md R60; log 7). -/
def obAddr (p : Params) (o off : Nat) : Nat :=
  o * p.outCap + off

/-- Byte `off` of frame buffer `h`, as its owner reads it (20_memory.md R60). -/
def fbRead (s : State) (h off : Nat) : Option Byte :=
  if off < s.cfg.bufSize then s.fb.read (fbAddr s.cfg h off) else none

/-- Byte `off` of output buffer `o`, as the host reads it (20_memory.md R60, R67). -/
def obRead (s : State) (o off : Nat) : Option Byte :=
  if off < s.cfg.outCap then s.ob.read (obAddr s.cfg o off) else none

/-- The `n` bytes of frame buffer `h` from offset `off` on. -/
def fbBytes (s : State) (h off n : Nat) : List (Option Byte) :=
  (List.range n).map fun i => fbRead s h (off + i)

/-- `BufWrite(h, off, v)` (00_scope.md R12). An offset the buffer does not have is no address
(20_memory.md R60; log 19). -/
def bufWrite (s : State) (h off : Nat) (v : Byte) : Result :=
  if off < s.cfg.bufSize then .next { s with fb := s.fb.write (fbAddr s.cfg h off) v }
  else .fault (.frameBufferBounds h off)

/-! ## Ownership -/

/-- The owner of frame buffer `h`; `none` is `POOL` (10_state.md R46). -/
def frameOwner (s : State) (h : Nat) : Option FrameOwner :=
  Assoc.lookup s.fbOwner h

/-- The owner of output buffer `o`; `none` is `POOL` (10_state.md R46). -/
def outOwner (s : State) (o : Nat) : Option OutOwner :=
  Assoc.lookup s.obOwner o

/-- `owner(h) <- w` for a frame buffer. -/
def setFrameOwner (s : State) (h : Nat) (w : FrameOwner) : State :=
  { s with fbOwner := Assoc.insert s.fbOwner h w }

/-- `owner(o) <- w` for an output buffer. -/
def setOutOwner (s : State) (o : Nat) (w : OutOwner) : State :=
  { s with obOwner := Assoc.insert s.obOwner o w }

/-- `Release(h)`: the frame buffer is the pool's again; no answer (30_encoding.md R100). -/
def poolTakesBack (s : State) (h : Nat) : State :=
  { s with fbOwner := Assoc.removeRange s.fbOwner h 1 }

/-- The hand-over of an accepted buffer: it is the consumer's (41_decoder.md R146, 20_memory.md R77), who
may have given it back before the pool is asked for the next one (60_exceptions.md R256). -/
def handOver (s : State) (h : Nat) (a : ConsumerAnswer) : State :=
  match a with
  | .code _ | .silent => setFrameOwner s h .consumer
  | .acceptAndRelease => poolTakesBack (setFrameOwner s h .consumer) h

/-- A frame-buffer handle the pool may hand out: a `BUF_ID_W`-bit value nobody owns (60_exceptions.md
R255, 30_encoding.md R100). -/
def poolMayGive (s : State) (h : Nat) : Bool :=
  h < 2 ^ s.cfg.bufIdW && frameOwner s h == none

/-- An output-buffer handle the allocator may hand out (60_exceptions.md R257, 30_encoding.md R101). -/
def allocatorMayGive (s : State) (o : Nat) : Bool :=
  o < 2 ^ s.cfg.outIdW && outOwner s o == none

/-! ## Events, responses and faults -/

/-- Puts one event on the core's ports. -/
def emit (s : State) (e : Event) : State :=
  { s with trace := e :: s.trace }

/-- `respond(r)` (00_scope.md R12, 30_encoding.md R97). -/
def respond (s : State) (r : Response) : State :=
  emit s (.response r)

/-- `respond(ACK)` as the end of a command. -/
def acknowledge (s : State) : Result :=
  .next (respond s .ack)

/-- `raise Fault(reason)`: writes `FAULT`, responds `FAULTED(reason)`, leaves every other register as
it stands (60_exceptions.md R233). -/
def raiseFault (s : State) (reason : FaultCode) : State :=
  respond { s with fault := reason } (.faulted reason)

/-- What every command starts with: a hung instance has not answered yet, so another command overlaps
it (70_reset_and_hazards.md R275; a hung hardware reset counts as well: DESIGN CHOICE, log 11); a faulted instance answers `FAULTED` and changes nothing
(30_encoding.md R96, 60_exceptions.md R233); otherwise the operation runs. -/
def runCommand (s : State) (operation : State → Result) : Result :=
  match s.wait with
  | some _ => .refused .overlappingCommand
  | none =>
    match s.fault with
    | .none => operation s
    | .illegalCmd => .next (respond s (.faulted .illegalCmd))
    | .allocFail => .next (respond s (.faulted .allocFail))

/-- An illegal command word: no operation, `Fault(ILLEGAL_CMD)` (30_encoding.md R95, R96;
60_exceptions.md R234). -/
def illegalCommand (s : State) : Result :=
  runCommand s fun s => .next (raiseFault s .illegalCmd)

/-! ## Exchanges with the collaborators -/

/-- The consumer's answer to the next delivery: the next scripted one, or else a free draw (log 5). -/
def consumerAnswer (s : State) : ConsumerAnswer :=
  match s.codes with
  | a :: _ => a
  | [] => Config.consumerDraw s.draws

/-- The consumer's answer has been taken. -/
def consumerAnswered (s : State) : State :=
  match s.codes with
  | _ :: rest => { s with codes := rest }
  | [] => { s with draws := s.draws + 1 }

/-- The code of an answer, if it ever comes (30_encoding.md R99). -/
def answeredCode (a : ConsumerAnswer) : Option Code :=
  match a with
  | .code c => some c
  | .acceptAndRelease => some 0
  | .silent => none

/-- A free draw of an allocator: a handle it may not give counts as FAIL, so the draws are exactly a
handle nobody owns, FAIL, or no answer (93_implementation_defined.md I7, I8; log 6). -/
def lawfulDraw (a : AllocAnswer) (mayGive : Nat → Bool) : AllocAnswer :=
  match a with
  | .ok h => if mayGive h then .ok h else .fail
  | .fail => .fail
  | .silent => .silent

/-- The pool's answer to the next `Acquire()` (log 5, log 6). -/
def poolAnswer (s : State) : AllocAnswer :=
  match s.acquires with
  | a :: _ => a
  | [] => lawfulDraw (Config.poolDraw s.draws) (poolMayGive s)

/-- The pool's answer has been taken. -/
def poolAnswered (s : State) : State :=
  match s.acquires with
  | _ :: rest => { s with acquires := rest }
  | [] => { s with draws := s.draws + 1 }

/-- The output allocator's answer to the next `OutAlloc()` (log 5, log 6). -/
def allocatorAnswer (s : State) : AllocAnswer :=
  match s.outAllocs with
  | a :: _ => a
  | [] => lawfulDraw (Config.outDraw s.draws) (allocatorMayGive s)

/-- The output allocator's answer has been taken. -/
def allocatorAnswered (s : State) : State :=
  match s.outAllocs with
  | _ :: rest => { s with outAllocs := rest }
  | [] => { s with draws := s.draws + 1 }

/-- How a request for a buffer ends. -/
inductive Allocation where
  /-- The handle is granted and its owner and contents are set. -/
  | granted (h : Nat) (s : State)
  /-- The answer was FAIL. -/
  | failed (s : State)
  /-- No answer comes: the command hangs (70_reset_and_hazards.md R280). -/
  | hung (s : State)
  /-- The allocator broke its duty (60_exceptions.md R255; I18). -/
  | unlawful (h : Nat)

/-- `Acquire()` with the hand-over to the decoder that follows every success: `owner(h) <- DEC`, and
contents unspecified (60_exceptions.md R255, 41_decoder.md R143, 70_reset_and_hazards.md R270,
20_memory.md R65). -/
def acquire (s : State) : Allocation :=
  let t := emit (poolAnswered s) (.acquire (poolAnswer s))
  match poolAnswer s with
  | .ok h =>
    if poolMayGive s h then
      .granted h { setFrameOwner t h .dec with
        fb := t.fb.forget (fbAddr t.cfg h 0) t.cfg.bufSize }
    else .unlawful h
  | .fail => .failed t
  | .silent => .hung { t with wait := some .pool }

/-- `OutAlloc()`: a fresh `OUT_CAP`-byte buffer, the encoder's for the step (30_encoding.md R101,
10_state.md R46, 20_memory.md R67). -/
def outAlloc (s : State) : Allocation :=
  let t := emit (allocatorAnswered s) (.outAlloc (allocatorAnswer s))
  match allocatorAnswer s with
  | .ok o =>
    if allocatorMayGive s o then
      .granted o { setOutOwner t o .enc with
        ob := t.ob.forget (obAddr t.cfg o 0) t.cfg.outCap }
    else .unlawful o
  | .fail => .failed t
  | .silent => .hung { t with wait := some .outAllocator }

/-- `OutRelease(o)`: the buffer is the allocator's again; no answer (30_encoding.md R101). -/
def outRelease (s : State) (o : Nat) : State :=
  emit { s with obOwner := Assoc.removeRange s.obOwner o 1 } (.outRelease o)

/-- What the consumer finds at a delivery of `n` bytes in buffer `h`: the tag byte and the frame, one
contiguous run (20_memory.md R62, 30_encoding.md R99). -/
def seenAtDelivery (s : State) (h n : Nat) : List (Option Byte) :=
  fbBytes s h tagOffset (n + 1)

/-- `Deliver(ctx, h, n)` as sent, with the consumer's answer (30_encoding.md R99, 41_decoder.md
R145). The state is that after the exchange; a consumer that never answers hangs the command. -/
def deliver (s : State) (h n : Nat) : State :=
  let t := emit (consumerAnswered s)
    (.deliver s.cfg.instId h n (seenAtDelivery s h n) (consumerAnswer s))
  match consumerAnswer s with
  | .code _ | .acceptAndRelease => t
  | .silent => { t with wait := some .consumer }

end Sys2Proof.Machine
end

