-- ==== Sys2Proof/Machine/Flags.lean ====
section
/-!
DEFINITION. The core's only status flags, `DEC.esc`, `DEC.discard` and `ENC.ovf` (10_state.md R51),
how each is written, and the frame-validity predicate that reads the decoder's (41_decoder.md R140).
-/
namespace Sys2Proof.Machine

/-- `DEC.esc <- v` (10_state.md R35). -/
def setEsc (s : State) (v : Bool) : State := { s with decEsc := v }

/-- `DEC.discard <- v` (10_state.md R36). -/
def setDiscard (s : State) (v : Bool) : State := { s with decDiscard := v }

/-- `ENC.ovf <- v` (10_state.md R43). -/
def setOvf (s : State) (v : Bool) : State := { s with encOvf := v }

/-- `FrameOK()`: "not mid-escape, not in discard mode, length exceeds the FCS length, and
`runningChecksum` equals the 'good FCS' sentinel" (41_decoder.md R140). -/
def frameOK (s : State) : Bool :=
  !s.decEsc && !s.decDiscard && decide (fcsLen < s.decLen) && s.decCrc == goodFcs

end Sys2Proof.Machine
end

