-- ==== Sys2Proof/Machine/Operands.lean ====
section
/-!
DEFINITION. The operand byte and what the two units make of a byte: the escape test and the byte
stuffing of the encoder (42_encoder.md R190, R194), the un-transforming of the decoder (41_decoder.md
R150), and the whole wire form of a frame (42_encoder.md R193).
-/
namespace Sys2Proof.Machine

/-- The operand of `DEC_BYTE` and `ENC_LOAD`: `IMM8` "taken as is. It is not sign-extended, scaled or
shifted" (30_encoding.md R93). -/
def operandByte (imm8 : Byte) : Byte := imm8

/-- `NeedsEsc(v)` (42_encoder.md R190). -/
def needsEsc (v : Byte) : Bool :=
  v == flag || v == escByte || v < ctrlLimit

/-- A byte under the transparency mask: what the encoder sends after `ESC` and what the decoder undoes
(42_encoder.md R194, 41_decoder.md R150). -/
def masked (v : Byte) : Byte := v ^^^ maskByte

/-- `stuff(v)`: the wire bytes of one byte (42_encoder.md R194). -/
def stuff (v : Byte) : List Byte :=
  if needsEsc v then [escByte, masked v] else [v]

/-- `stuff` over a list, in order. -/
def stuffAll (l : List Byte) : List Byte :=
  l.flatMap stuff

/-- `w(v)`: how many wire bytes a byte takes (42_encoder.md R204). -/
def stuffedWidth (v : Byte) : Nat :=
  if needsEsc v then 2 else 1

/-- The bytes `ENC_FRAME` emits for a frame when nothing stops it, in order: `FLAG`, the stuffed frame,
the stuffed check sequence low byte first, `FLAG` (42_encoder.md R193, R198 to R200). -/
def wireBytes (frame : List Byte) : List Byte :=
  flag :: (stuffAll frame ++ stuffAll (fcsBytes frame) ++ [flag])

end Sys2Proof.Machine
end

