-- ==== Sys2Proof/Machine/Decoder.lean ====
section
/-!
DEFINITION. The AHDLC decoder: `DEC_RESET`, `DEC_BYTE`, `DEC_END` (41_decoder.md).
-/
namespace Sys2Proof.Machine

/-- `DecReset()` (41_decoder.md R141): the three fields and the logical length, then the tag byte of
the buffer the decoder keeps. -/
def decReset (s : State) : Result :=
  let t := setDiscard (setEsc s false) false
  bufWrite { t with decCrc := fcsInit, decLen := 0 } t.decBuf tagOffset t.cfg.tagInit

/-- The end of every `FLAG` step and of `DEC_RESET`: `DecReset(); respond(ACK)` (41_decoder.md R148,
R142). -/
def resetAndAck (s : State) : Result :=
  andThen (decReset s) acknowledge

/-- After code 0, given by the answer `a`: the old buffer is handed over and a fresh one is acquired
before anything else (41_decoder.md R146, 20_memory.md R77). -/
def acceptedDelivery (s : State) (a : ConsumerAnswer) : Result :=
  match acquire (handOver s s.decBuf a) with
  | .granted h t => resetAndAck { t with decBuf := h }
  | .failed t => .next (raiseFault t .allocFail)
  | .hung t => .next t
  | .unlawful h => .refused (.notOwnedByPool h)

/-- After a nonzero code: recorded if it is the call's first; the buffer is kept (41_decoder.md R147). -/
def rejectedDelivery (s : State) (code : Code) : Result :=
  resetAndAck (if s.decPend = 0 then { s with decPend := code } else s)

/-- A well-formed frame at a `FLAG`: the two check bytes are trimmed and the consumer is asked
(41_decoder.md R145). -/
def deliverFrame (s : State) : Result :=
  let t := deliver s s.decBuf (s.decLen - fcsLen)
  match answeredCode (consumerAnswer s) with
  | some c => if c = 0 then acceptedDelivery t (consumerAnswer s) else rejectedDelivery t c
  | none => .next t

/-- Step 1: a `FLAG`, whatever the flags hold (41_decoder.md R144, R145, R148). -/
def flagByte (s : State) : Result :=
  if frameOK s then deliverFrame s else resetAndAck s

/-- Step 6: the byte is stored at the write cursor, counted, and folded into the checksum
(41_decoder.md R153, 20_memory.md R64). -/
def appendByte (s : State) (b : Byte) : Result :=
  andThen (bufWrite s s.decBuf (hdrRes + s.decLen) b) fun t =>
    acknowledge { t with decLen := t.decLen + 1, decCrc := crc16Update t.decCrc b }

/-- Step 5, then step 6: a full buffer turns to discard mode and the byte is dropped (41_decoder.md
R152). -/
def storeByte (s : State) (b : Byte) : Result :=
  if s.decLen = s.cfg.cap then acknowledge (setDiscard s true) else appendByte s b

/-- Steps 1 to 6 on one raw byte, in order (41_decoder.md R143). -/
def consumeByte (s : State) (b : Byte) : Result :=
  if b = flag then flagByte s
  else if s.decDiscard then acknowledge s
  else if s.decEsc then storeByte (setEsc s false) (masked b)
  else if b = escByte then acknowledge (setEsc s true)
  else storeByte s b

/-- `DEC_RESET` (41_decoder.md R142). -/
def execDecReset (s : State) : Result :=
  runCommand s resetAndAck

/-- `DEC_BYTE b` (41_decoder.md R143). -/
def execDecByte (b : Byte) (s : State) : Result :=
  runCommand s fun s => consumeByte s (operandByte b)

/-- `DEC_END`: answers the pending status and clears it (41_decoder.md R160). -/
def execDecEnd (s : State) : Result :=
  runCommand s fun s => .next (respond { s with decPend := 0 } (.status s.decPend))

end Sys2Proof.Machine
end

