-- ==== Sys2Proof/Machine/Encoder.lean ====
section
/-!
DEFINITION. The AHDLC encoder: `ENC_CLEAR`, `ENC_LOAD`, `ENC_FRAME` (42_encoder.md).
-/
namespace Sys2Proof.Machine

/-- The output side of one `ENC_FRAME`: the output memory, the output cursor `k`, and whether an emit
has found the buffer full (42_encoder.md R194). -/
structure Output where
  mem : Memory
  k : Nat
  full : Bool

/-- `emit(v)`: the capacity is checked before every write, and nothing is written once it is exhausted
(42_encoder.md R194, R201). -/
def emitByte (p : Params) (o : Nat) (out : Output) (v : Byte) : Output :=
  if out.full then out
  else if out.k = p.outCap then { out with full := true }
  else { out with mem := out.mem.write (obAddr p o out.k) v, k := out.k + 1 }

/-- `emit` over a list, in order. -/
def emitBytes (p : Params) (o : Nat) (out : Output) (vs : List Byte) : Output :=
  vs.foldl (emitByte p o) out

/-- The staged frame `ENC.in[0 : ENC.n]` (42_encoder.md R193). -/
def stagedFrame (s : State) : List Byte :=
  s.encIn.take s.encN

/-- The staging emptied: `ENC.n <- 0; ENC.ovf <- 0` (42_encoder.md R191, R203). -/
def clearStaging (s : State) : State :=
  setOvf { s with encN := 0 } false

/-- The `EMSGSIZE` outcome: the output buffer is released and nothing is returned (42_encoder.md R201). -/
def messageTooLarge (s : State) (o : Nat) : State :=
  respond (outRelease s o) (.encResult .emsgsize 0 none)

/-- The `OK` outcome: the output buffer and its length go to the host (42_encoder.md R202). -/
def wireFrameReady (s : State) (o len : Nat) : State :=
  respond (setOutOwner s o .host) (.encResult .ok len (some o))

/-- What `ENC_FRAME` emits: all of the frame's wire bytes, or only the leading `FLAG` when the input
exceeded the staging (42_encoder.md R193). -/
def bytesToEmit (ovf : Bool) (frame : List Byte) : List Byte :=
  if ovf then [flag] else wireBytes frame

/-- From the leading `FLAG` on, with output buffer `o` allocated (42_encoder.md R193, R201, R202). -/
def emitFrame (s : State) (o : Nat) (ovf : Bool) (frame : List Byte) : State :=
  let out := emitBytes s.cfg o { mem := s.ob, k := 0, full := false } (bytesToEmit ovf frame)
  let t := { s with ob := out.mem }
  if ovf || out.full then messageTooLarge t o else wireFrameReady t o out.k

/-- `ENC_FRAME` on a staging already emptied: `EINVAL` before any allocation, then the allocation,
then the frame (42_encoder.md R193, R196, R197; 60_exceptions.md R239). -/
def encodeFrame (s : State) (ovf : Bool) (n : Nat) (frame : List Byte) : Result :=
  if !ovf && decide (n ≤ s.cfg.hdrLen) then .next (respond s (.encResult .einval 0 none))
  else
    match outAlloc s with
    | .granted o t => .next (emitFrame t o ovf frame)
    | .failed t => .next (raiseFault t .allocFail)
    | .hung t => .next t
    | .unlawful o => .refused (.notOwnedByPool o)

/-- `ENC_CLEAR` (42_encoder.md R191). -/
def execEncClear (s : State) : Result :=
  runCommand s fun s => acknowledge (clearStaging s)

/-- `ENC_LOAD b` (42_encoder.md R192). -/
def execEncLoad (b : Byte) (s : State) : Result :=
  runCommand s fun s =>
    if s.encN < s.cfg.encInMax then
      acknowledge { s with encIn := s.encIn.set s.encN (operandByte b), encN := s.encN + 1 }
    else acknowledge (setOvf s true)

/-- `ENC_FRAME` (42_encoder.md R193). -/
def execEncFrame (s : State) : Result :=
  runCommand s fun s => encodeFrame (clearStaging s) s.encOvf s.encN (stagedFrame s)

end Sys2Proof.Machine
end

