-- ==== Sys2Proof/Machine/Dispatch.lean ====
section
/-! DEFINITION. One arm per command (30_encoding.md R96). -/

namespace Sys2Proof.Machine

def exec (i : Instr) (s : State) : Host.Outcome State Fault Refusal :=
  match i with
  | .decReset => Sys2Proof.Machine.execDecReset s
  | .decByte b => Sys2Proof.Machine.execDecByte b s
  | .decEnd => Sys2Proof.Machine.execDecEnd s
  | .encClear => Sys2Proof.Machine.execEncClear s
  | .encLoad b => Sys2Proof.Machine.execEncLoad b s
  | .encFrame => Sys2Proof.Machine.execEncFrame s

end Sys2Proof.Machine
end

