-- ==== Sys2Proof/Machine/Environment.lean ====
section
/-!
DEFINITION. What the other parties do between two commands: hardware reset (70_reset_and_hazards.md
R270), the consumer's and the host's use of buffers they own, and the order in which the core meets
its inputs.
-/
namespace Sys2Proof.Machine

/-- The part of a hardware reset before its `Acquire()`: the registers `FAULT`, `DEC.pend` and the
staging, the end of any hang, and the pool back in its initial state with every buffer free and its
contents unspecified (70_reset_and_hazards.md R270, R271; log 15). -/
def powerOn (s : State) : State :=
  { s with fault := .none, decPend := 0, encN := 0, encOvf := false, wait := none,
           fb := [], fbOwner := [] }

/-- `HardwareReset()` (70_reset_and_hazards.md R270). It gives no response and makes no delivery. A
failed `Acquire()` leaves the instance in `ALLOC_FAIL` (R272). DESIGN CHOICE: a pool that never answers
leaves the reset hung in the field `wait` like a hung command, and a command issued then is refused
(log 10, log 11). -/
def hardwareReset (s : State) : Result :=
  match acquire (powerOn s) with
  | .granted h t => decReset { t with decBuf := h }
  | .failed t => .next { t with fault := .allocFail }
  | .hung t => .next t
  | .unlawful h => .refused (.notOwnedByPool h)

/-- The consumer writes a byte of a frame buffer it owns (60_exceptions.md R256); any other buffer is
not its to touch (70_reset_and_hazards.md R276; log 17). DESIGN CHOICE: a write to an offset the buffer
does not have (`BUF_SIZE` or more) stops with the fault `frameBufferBounds` (log 19). -/
def consumerWrite (h off : Nat) (v : Byte) (s : State) : Result :=
  if frameOwner s h = some .consumer then bufWrite s h off v else .refused (.notOwnedByActor h)

/-- The consumer gives a frame buffer it owns back to the pool (30_encoding.md R100, 60_exceptions.md
R256; log 17). -/
def consumerRelease (h : Nat) (s : State) : Result :=
  if frameOwner s h = some .consumer then
    .next (poolTakesBack s h)
  else .refused (.notOwnedByActor h)

/-- The host gives an output buffer it owns back to the allocator (60_exceptions.md R257,
70_reset_and_hazards.md R279; log 17). -/
def hostRelease (o : Nat) (s : State) : Result :=
  if outOwner s o = some .host then
    .next { s with obOwner := Assoc.removeRange s.obOwner o 1 }
  else .refused (.notOwnedByActor o)

/-- One action of another party. -/
def act (a : Action) (s : State) : Result :=
  match a with
  | .hardwareReset => hardwareReset s
  | .consumerWrite h off v => consumerWrite h off v s
  | .consumerRelease h => consumerRelease h s
  | .hostRelease o => hostRelease o s

/-- The input the core meets next, if there is one (30_encoding.md R90, R98; log 13). -/
def nextInput (s : State) : Option Input :=
  s.inputs.head?

/-- The state once that input has been taken off the port. -/
def inputTaken (s : State) : State :=
  { s with inputs := s.inputs.tail }

/-- The state with a command word about to be met, before everything else the host has in mind. -/
def issueFirst (s : State) (w : Word) : State :=
  { s with inputs := .command w :: s.inputs }

end Sys2Proof.Machine
end

