-- ==== Sys2Proof/Machine/Step.lean ====
section
/-!
DEFINITION. One step: the core meets its next input. A command word runs `Dispatch(w)` (30_encoding.md
R96); with no input the instance is idle and "keeps all its state" (60_exceptions.md R244).
-/
namespace Sys2Proof.Machine

/-- `Dispatch(w)` (30_encoding.md R96): the checks on `FAULT` stand at the start of every meaning and
of `illegalCommand`, so a faulted instance reports its fault whatever the word is. -/
def runWord (w : Word) (s : State) : Host.Outcome State Fault Refusal :=
  match decode w with
  | .ok i => exec i s
  | .error _ => illegalCommand s

/-- One step of the machine. -/
def step (s : State) : Host.Outcome State Fault Refusal :=
  match nextInput s with
  | none => .next s
  | some (.command w) => runWord w (inputTaken s)
  | some (.action a) => act a (inputTaken s)

/-- `s` with the command word of a table row about to be met. The core fetches nothing: the host
issues the word (10_state.md R31; log 13). -/
def State.withFetchWord (s : State) (_nbits w : Nat) : State :=
  issueFirst s (BitVec.ofNat 16 w)

end Sys2Proof.Machine
end

