-- ==== Sys2Proof/Machine/Assembler.lean ====
section
/-!
DEFINITION. The assembler syntax (30_encoding.md R102) and the expansion of the two pseudo-instructions
(R103, R104). It is text only: nothing the core does rests on it. Texts are lists of characters, so
that the kernel can evaluate them.
-/
namespace Sys2Proof.Machine

/-- Why a line is refused. -/
inductive AsmError where
  | unknownMnemonic
  | operandCount
  | badNumber
deriving DecidableEq, Repr

/-- Spaces and tabs separate the parts of a line (log 21). -/
def isBlankChar (c : Char) : Bool := c == ' ' || c == '\t' || c == '\r'

/-- A text without the blanks around it. -/
def trimBlanks (t : List Char) : List Char :=
  ((t.dropWhile isBlankChar).reverse.dropWhile isBlankChar).reverse

/-- The part of a line before its comment: "`#` starts a comment that runs to the end of the line". -/
def beforeComment (t : List Char) : List Char :=
  t.takeWhile (· != '#')

/-- Cuts a text at every separator. -/
def cutAt (sep : Char) : List Char → List (List Char)
  | [] => [[]]
  | c :: cs =>
    match cutAt sep cs with
    | [] => [[c]]
    | w :: ws => if c = sep then [] :: w :: ws else (c :: w) :: ws

/-- The ten decimal digits, each at the place of its value. -/
def decimalDigits : List Char := "0123456789".toList

/-- The place of a digit in a list of digits. -/
def digitPlace (digits : List Char) (c : Char) : Option Nat :=
  digits.findIdx? (· == c)

/-- The value of a decimal digit. -/
def decimalValue (c : Char) : Option Nat := digitPlace decimalDigits c

/-- The value of a hexadecimal digit, either case (log 21). -/
def hexValue (c : Char) : Option Nat :=
  (digitPlace (decimalDigits ++ "ABCDEF".toList) c).or
    (digitPlace (decimalDigits ++ "abcdef".toList) c)

/-- The number a nonempty list of digits stands for in base `base`. -/
def numeral (base : Nat) (digit : Char → Option Nat) (t : List Char) : Option Nat :=
  if t = [] then none
  else t.foldl (fun acc c => acc.bind fun n => (digit c).map fun d => n * base + d) (some 0)

/-- "a byte as `0x` plus two hexadecimal digits, or a decimal `0 .. 255`" (30_encoding.md R102). -/
def parseByte (t : List Char) : Except AsmError Byte :=
  match t with
  | ['0', 'x', a, b] =>
    match numeral 16 hexValue [a, b] with
    | some n => .ok (BitVec.ofNat 8 n)
    | none => .error .badNumber
  | _ =>
    match numeral 10 decimalValue t with
    | some n => if n < 256 then .ok (BitVec.ofNat 8 n) else .error .badNumber
    | none => .error .badNumber

/-- The operand of `.word`: `0xHHHH` (30_encoding.md R102). -/
def parseWord (t : List Char) : Except AsmError Word :=
  match t with
  | ['0', 'x', a, b, c, d] =>
    match numeral 16 hexValue [a, b, c, d] with
    | some n => .ok (BitVec.ofNat 16 n)
    | none => .error .badNumber
  | _ => .error .badNumber

/-- The operand texts of a line: none, or those between the commas. -/
def operandTexts (t : List Char) : List (List Char) :=
  if trimBlanks t = [] then [] else (cutAt ',' t).map trimBlanks

/-- Reads every text as a byte. -/
def parseBytes : List (List Char) → Except AsmError (List Byte)
  | [] => .ok []
  | t :: ts =>
    match parseByte t, parseBytes ts with
    | .ok b, .ok bs => .ok (b :: bs)
    | .error e, _ => .error e
    | _, .error e => .error e

/-- A command without operand. -/
def plainCommand (i : Instr) (operands : List (List Char)) : Except AsmError (List Word) :=
  match operands with
  | [] => .ok [encode i]
  | _ => .error .operandCount

/-- A command with one byte operand. -/
def byteCommand (f : Byte → Instr) (operands : List (List Char)) : Except AsmError (List Word) :=
  match operands with
  | [t] =>
    match parseByte t with
    | .ok b => .ok [encode (f b)]
    | .error e => .error e
  | _ => .error .operandCount

/-- A pseudo-instruction over a list of bytes (30_encoding.md R103, R104). -/
def expandCommand (f : List Byte → List Instr) (operands : List (List Char)) :
    Except AsmError (List Word) :=
  match parseBytes operands with
  | .ok bs => .ok ((f bs).map encode)
  | .error e => .error e

/-- `.word 0xHHHH`: a raw word, "which is how an illegal word is written" (30_encoding.md R102). -/
def rawWord (operands : List (List Char)) : Except AsmError (List Word) :=
  match operands with
  | [t] =>
    match parseWord t with
    | .ok w => .ok [w]
    | .error e => .error e
  | _ => .error .operandCount

/-- The words of one mnemonic with its operands; mnemonics are upper case (30_encoding.md R102). -/
def assembleParts (name : List Char) (operands : List (List Char)) : Except AsmError (List Word) :=
  if name = "DEC_RESET".toList then plainCommand .decReset operands
  else if name = "DEC_BYTE".toList then byteCommand .decByte operands
  else if name = "DEC_END".toList then plainCommand .decEnd operands
  else if name = "ENC_CLEAR".toList then plainCommand .encClear operands
  else if name = "ENC_LOAD".toList then byteCommand .encLoad operands
  else if name = "ENC_FRAME".toList then plainCommand .encFrame operands
  else if name = "DECODE".toList then expandCommand decodeCall operands
  else if name = "ENCODE".toList then expandCommand encodeCall operands
  else if name = ".word".toList then rawWord operands
  else .error .unknownMnemonic

/-- The words of one line; a line with nothing before its comment has none (30_encoding.md R102). -/
def assembleLine (line : List Char) : Except AsmError (List Word) :=
  let t := trimBlanks (beforeComment line)
  if t = [] then .ok []
  else assembleParts (t.takeWhile fun c => !isBlankChar c)
    (operandTexts (t.dropWhile fun c => !isBlankChar c))

/-- The words of the lines of a text, in order. -/
def assembleLines : List (List Char) → Except AsmError (List Word)
  | [] => .ok []
  | l :: ls =>
    match assembleLine l, assembleLines ls with
    | .ok ws, .ok rest => .ok (ws ++ rest)
    | .error e, _ => .error e
    | _, .error e => .error e

/-- The words of a program text, "one command per line" (30_encoding.md R102). -/
def assemble (text : List Char) : Except AsmError (List Word) :=
  assembleLines (cutAt '\n' text)

end Sys2Proof.Machine
end

