-- ==== Sys2Proof/Machine/Codes.lean ====
section
/-!
DEFINITION. The spec's own numbers for what the host gets: the 2-bit values of `FAULT` and of
`ENC_RESULT.est`, and the response record with its kind code (10_state.md R44, 30_encoding.md R97,
60_exceptions.md R238). How the record is packed onto wires is not specified.
-/
namespace Sys2Proof.Machine

/-- The 2-bit value of `FAULT`: 0 `NONE`, 1 `ILLEGAL_CMD`, 2 `ALLOC_FAIL` (10_state.md R44,
60_exceptions.md R238). -/
def FaultCode.bits : FaultCode → BitVec 2
  | .none => 0#2
  | .illegalCmd => 1#2
  | .allocFail => 2#2

/-- The 2-bit value of `ENC_RESULT.est`: 0 `OK`, 1 `EINVAL`, 2 `EMSGSIZE` (30_encoding.md R97,
60_exceptions.md R238). -/
def EncStatus.bits : EncStatus → BitVec 2
  | .ok => 0#2
  | .einval => 1#2
  | .emsgsize => 2#2

/-- A response as the host gets it: the kind code and the fields its kind has (30_encoding.md R97). -/
structure ResponseRecord where
  /-- 0 `ACK`, 1 `STATUS`, 2 `ENC_RESULT`, 3 `FAULTED`. -/
  kind : Nat
  /-- `STATUS.code`, `CODE_W` bits. -/
  code : Option Code
  /-- `ENC_RESULT.est`. -/
  est : Option (BitVec 2)
  /-- `ENC_RESULT.olen`. -/
  olen : Option Nat
  /-- `ENC_RESULT.oh`, where the result carries a handle (log 18). -/
  oh : Option Nat
  /-- `FAULTED.reason`. -/
  reason : Option (BitVec 2)
deriving DecidableEq, Repr

/-- The record with a kind code and no field. -/
def bareRecord (kind : Nat) : ResponseRecord :=
  { kind := kind, code := none, est := none, olen := none, oh := none, reason := none }

/-- The record of a response (30_encoding.md R97). -/
def Response.record : Response → ResponseRecord
  | .ack => bareRecord 0
  | .status c => { bareRecord 1 with code := some c }
  | .encResult est olen oh =>
    { bareRecord 2 with est := some est.bits, olen := some olen, oh := oh }
  | .faulted reason => { bareRecord 3 with reason := some reason.bits }

end Sys2Proof.Machine
end

