-- ==== Sys2Proof/Safety.lean ====
section
/-!
DEFINITION. The terms claims use: runs of commands, what a run delivered and answered, the end of a run,
and the invariant of the machine.
-/
namespace Sys2Proof

open Machine

/-- The commands of a list one after the other, each after the response of the one before (R275). -/
def runCommands : List Instr → State → Result
  | [], s => .next s
  | i :: rest, s => andThen (exec i s) (runCommands rest)

/-- Whether an event is a delivery message. -/
def isDelivery : Event → Bool
  | .deliver .. => true
  | .response _ | .acquire _ | .outAlloc _ | .outRelease _ => false

/-- Whether an event is a response. -/
def isResponse : Event → Bool
  | .response _ => true
  | .deliver .. | .acquire _ | .outAlloc _ | .outRelease _ => false

/-- The deliveries made so far, newest first. -/
def deliveries (s : State) : List Event := s.trace.filter isDelivery

/-- The responses given so far, newest first. -/
def responses (s : State) : List Event := s.trace.filter isResponse

/-- Whether an input is a command word. -/
def isCommand : Input → Bool
  | .command _ => true
  | .action _ => false

/-- "A run of an instance is finished when the last command the host issued has responded and no
Deliver, Acquire or OutAlloc is outstanding" (70_reset_and_hazards.md R284): no command word is left on
the port and nothing is waited for. Other parties' actions still to come leave a run finished. DESIGN
CHOICE (log 24): after a hardware reset that cut off a hung command, the run counts as finished although
that command never responded: the reset begins a new run, with no command issued in it yet. -/
def finished (s : State) : Bool := !s.inputs.any isCommand && s.wait == none

/-- "A finished state with FAULT != NONE is a faulted run, never a successful one"
(70_reset_and_hazards.md R284). It shares the choice of log 24. -/
def successful (s : State) : Bool := finished s && s.fault == .none

/-- The instance runs the next command: no command is outstanding and `FAULT = NONE` (30_encoding.md
R96). -/
abbrev Ready (s : State) : Prop := s.wait = none ∧ s.fault = .none

/-- The decoder's fields as a reset procedure leaves them (41_decoder.md R141, R164). -/
abbrev DecoderFresh (s : State) : Prop :=
  s.decLen = 0 ∧ s.decEsc = false ∧ s.decDiscard = false ∧ s.decCrc = fcsInit

/-- The decoder's registers are the same in both states (10_state.md R32). -/
abbrev SameDecoder (s t : State) : Prop :=
  t.decBuf = s.decBuf ∧ t.decLen = s.decLen ∧ t.decEsc = s.decEsc ∧ t.decDiscard = s.decDiscard ∧
    t.decCrc = s.decCrc ∧ t.decPend = s.decPend

/-- The frame buffers, their owners and the parties behind them are the same in both states. -/
abbrev SameFrameSide (s t : State) : Prop :=
  t.fb = s.fb ∧ t.fbOwner = s.fbOwner ∧ t.codes = s.codes ∧ t.acquires = s.acquires

/-- The encoder's registers are the same in both states (10_state.md R40). -/
abbrev SameStaging (s t : State) : Prop :=
  t.encN = s.encN ∧ t.encIn = s.encIn ∧ t.encOvf = s.encOvf

/-- The output buffers, their owners and the allocator behind them are the same in both states. -/
abbrev SameOutputSide (s t : State) : Prop :=
  t.ob = s.ob ∧ t.obOwner = s.obOwner ∧ t.outAllocs = s.outAllocs

/-- The frame a `FLAG` meets is well-formed: the four conditions of 41_decoder.md R140. -/
abbrev WellFormedFrame (s : State) : Prop :=
  s.decEsc = false ∧ s.decDiscard = false ∧ 2 < s.decLen ∧ s.decCrc = 0xF0B8#16

/-- The state in which the pool is asked after an accepted delivery: the consumer has answered and the
buffer is handed over (41_decoder.md R143). -/
def askingPool (s : State) : State :=
  handOver (deliver s s.decBuf (s.decLen - 2)) s.decBuf (consumerAnswer s)

/-- Who owns an accepted buffer when the pool is asked for the next one: the consumer, or the pool if the
consumer has given it back already (60_exceptions.md R256). -/
def acceptedOwner : ConsumerAnswer → Option FrameOwner
  | .code _ | .silent => some .consumer
  | .acceptAndRelease => none

/-- Between `s` and `t` one `DEC_BYTE` delivered a frame and acquired buffer `h`: of its three events the
second is that acquisition. -/
abbrev JustAcquired (s t : State) (h : Nat) : Prop :=
  ∃ e, t.trace = .response .ack :: .acquire (.ok h) :: e :: s.trace

/-- The raw bytes of a list of commands, in order (41_decoder.md R161). -/
def fedBytes : List Instr → List Byte
  | [] => []
  | .decByte b :: rest => b :: fedBytes rest
  | .decReset :: rest | .decEnd :: rest | .encClear :: rest | .encLoad _ :: rest
  | .encFrame :: rest => fedBytes rest

/-- Whether a command belongs to a decode call (30_encoding.md R103). -/
def isDecodeCommand : Instr → Bool
  | .decByte _ | .decEnd => true
  | .decReset | .encClear | .encLoad _ | .encFrame => false

/-- A state less what depends on where a stream is split into calls: the pending status and the
responses; the deliveries stay (41_decoder.md R162). -/
def unchunked (s : State) : State :=
  { s with decPend := 0, trace := deliveries s }

/-- Which responses a command may end with (30_encoding.md R97, the column "produced by"). -/
def mayRespond : Instr → Response → Bool
  | _, .faulted .illegalCmd | _, .faulted .allocFail => true
  | _, .faulted .none => false
  | .decReset, .ack | .decByte _, .ack | .encClear, .ack | .encLoad _, .ack => true
  | .decEnd, .status _ => true
  | .encFrame, .encResult .ok _ (some _) => true
  | .encFrame, .encResult .einval n none | .encFrame, .encResult .emsgsize n none => n == 0
  | _, _ => false

/-- What holds of every state the machine can reach. -/
structure MachineInv (s : State) : Prop where
  /-- The configuration keeps the bounds of 00_scope.md R8. -/
  cfgWf : s.cfg.wf
  /-- The memories are in canonical form. -/
  fbWf : s.fb.wf
  obWf : s.ob.wf
  /-- The ownership maps are in canonical form. -/
  fbOwnerSorted : Assoc.Sorted s.fbOwner
  obOwnerSorted : Assoc.Sorted s.obOwner
  /-- "The assembly buffer's logical length never exceeds its fixed capacity" (10_state.md R33). -/
  lenCap : s.decLen ≤ s.cfg.cap
  /-- Flag exclusivity (10_state.md R39). -/
  oneFlag : ¬ (s.decEsc = true ∧ s.decDiscard = true)
  /-- Discard mode begins at a full buffer and the length stays (41_decoder.md R152). -/
  discardFull : s.decDiscard = true → s.decLen = s.cfg.cap
  /-- The staging holds at most `ENC_IN_MAX` bytes (10_state.md R41, R42). -/
  stagedFits : s.encN ≤ s.cfg.encInMax
  stagingSize : s.encIn.length = s.cfg.encInMax
  /-- The staging overflows only when full (10_state.md R43). -/
  ovfFull : s.encOvf = true → s.encN = s.cfg.encInMax
  /-- The decoder owns its buffer unless an acquisition failed or hangs (20_memory.md R76). -/
  bufOwned : s.fault ≠ .allocFail → s.wait ≠ some .pool → frameOwner s s.decBuf = some .dec
  /-- The decoder owns no other buffer (10_state.md R46). -/
  soleBuffer : ∀ h, frameOwner s h = some .dec → h = s.decBuf
  /-- Owned frame buffers have `BUF_ID_W`-bit handles (00_scope.md R8). -/
  handleFits : ∀ h w, frameOwner s h = some w → h < 2 ^ s.cfg.bufIdW
  /-- Owned output buffers have `OUT_ID_W`-bit handles (00_scope.md R8). -/
  outHandleFits : ∀ o w, outOwner s o = some w → o < 2 ^ s.cfg.outIdW
  /-- The encoder owns an output buffer during one step only (10_state.md R46). -/
  noEncBuffer : ∀ o, outOwner s o ≠ some .enc
  /-- A hung command has raised no fault (60_exceptions.md R233). -/
  hungHealthy : s.wait ≠ none → s.fault = .none
  /-- The buffer being filled carries an initialised tag (20_memory.md R62). -/
  tagSet : frameOwner s s.decBuf = some .dec →
    fbRead s s.decBuf tagOffset = some s.cfg.tagInit
  /-- The assembled bytes are in the buffer and `DEC.crc` is their checksum (20_memory.md R64,
  41_decoder.md R153). -/
  assembled : frameOwner s s.decBuf = some .dec →
    ∃ l : List Byte, fbBytes s s.decBuf hdrRes s.decLen = l.map some ∧ s.decCrc = crc16 l

end Sys2Proof
end

