-- ==== Sys2Proof/Certificates/Slice0/Obligations.lean ====
section
/-!
DEFINITION. The statements for the provers, each from the numbered rules its docstring names.
-/

open Sys2Proof Sys2Proof.Machine

/-! ## Encoding -/

/-- R94, R95: the decoder reads exactly the words the encoder writes. Every instruction comes back
from its word with its operand, and no other word decodes to it. -/
def Obligations.DecodeInvertsEncode : Prop :=
  ∀ (w : Word) (i : Instr), decode w = .ok i ↔ w = encode i

/-- R94: a word decodes exactly when a row of the opcode map selects it, and then exactly one row
does, that of the decoded instruction's mnemonic. -/
def Obligations.DecodedWordsAreTheMapRows : Prop :=
  (∀ w : Word, (∃ i, decode w = .ok i) ↔ legalWord w = true) ∧
  ∀ (w : Word) (i : Instr) (r : OpRow), decode w = .ok i → r ∈ opcodeMap →
    (r.selectedBy w = true ↔ r.mnemonic = i.mnemonic)

/-- R95: a word is illegal exactly when `OP` is reserved, `RSV` is not zero, or a command without
operand has a nonzero `IMM8`; an illegal word on a ready instance performs no operation and raises
`Fault(ILLEGAL_CMD)`. -/
def Obligations.IllegalWordsByField : Prop :=
  (∀ w : Word, legalWord w = false ↔
    (opField w = 0x0#4 ∨ 0x7#4 ≤ opField w) ∨ rsvField w ≠ 0#4 ∨
      ((opField w = 0x1#4 ∨ opField w = 0x3#4 ∨ opField w = 0x4#4 ∨ opField w = 0x6#4) ∧
        immField w ≠ 0x00#8)) ∧
  ∀ (s : State) (w : Word), Ready s → legalWord w = false →
    runWord w s = .next { s with
      fault := .illegalCmd, trace := .response (.faulted .illegalCmd) :: s.trace }

/-- R95, its count: 516 of the 65536 words are legal. -/
def Obligations.LegalWordCount : Prop :=
  ((List.range 65536).filter fun n => legalWord (BitVec.ofNat 16 n)).length = 516

/-- R94, R102, V-L, P1 (sanity): words written out from the spec's encoding decode to their
instructions. -/
def Obligations.WrittenOutWordsDecode : Prop :=
  decode 0b0001000000000000#16 = .ok .decReset ∧
  decode 0b0010000001111110#16 = .ok (.decByte 0x7E#8) ∧
  decode 0b0011000000000000#16 = .ok .decEnd ∧
  decode 0b0100000000000000#16 = .ok .encClear ∧
  decode 0b0101000011111111#16 = .ok (.encLoad 0xFF#8) ∧
  decode 0b0110000000000000#16 = .ok .encFrame

/-- R102 (sanity): the three examples of the assembler syntax, and a raw word. -/
def Obligations.AssemblerExamples : Prop :=
  assembleLine "DEC_BYTE 0x7E".toList = .ok [0x207E#16] ∧
  assembleLine "ENC_LOAD 0xFF  # a comment".toList = .ok [0x50FF#16] ∧
  assembleLine "DEC_END".toList = .ok [0x3000#16] ∧
  assembleLine ".word 0x7000".toList = .ok [0x7000#16]

/-! ## Dispatch and faults -/

/-- R96, R6: when the word the host issues next decodes to an instruction, the step is that
instruction's meaning on the state with the word taken; a word that does not decode is an illegal
command; with no input the instance keeps all its state (R244). -/
def Obligations.StepRunsTheDecodedInstruction : Prop :=
  (∀ (s : State) (w : Word) (rest : List Input) (i : Instr),
    s.inputs = .command w :: rest → decode w = .ok i →
    step s = exec i { s with inputs := rest }) ∧
  (∀ (s : State) (w : Word) (rest : List Input) (e : IllegalWord),
    s.inputs = .command w :: rest → decode w = .error e →
    step s = illegalCommand { s with inputs := rest }) ∧
  (∀ (s : State) (a : Action) (rest : List Input),
    s.inputs = .action a :: rest → step s = act a { s with inputs := rest }) ∧
  (∀ s : State, s.inputs = [] → step s = .next s) ∧
  ∀ (s : State) (i : Instr), step (s.withFetchWord 16 (encode i).toNat) = exec i s

/-- R233, R96: a faulted instance answers every word, legal or not, with `FAULTED(FAULT)` and
changes nothing. -/
def Obligations.FaultedInstanceOnlyResponds : Prop :=
  ∀ (s : State) (w : Word) (rest : List Input), s.wait = none → s.fault ≠ .none →
    s.inputs = .command w :: rest →
    step s = .next { s with
      inputs := rest, trace := .response (.faulted s.fault) :: s.trace }

/-- R234: an illegal word on a ready instance writes `FAULT <- ILLEGAL_CMD`, responds, and changes
no other state. -/
def Obligations.IllegalWordRaisesIllegalCmd : Prop :=
  ∀ (s : State) (w : Word) (rest : List Input), Ready s → legalWord w = false →
    s.inputs = .command w :: rest →
    step s = .next { s with
      inputs := rest, fault := .illegalCmd,
      trace := .response (.faulted .illegalCmd) :: s.trace }

/-- R233: no command and no other party's action clears `FAULT`; only a hardware reset does. -/
def Obligations.OnlyHardwareResetClearsFault : Prop :=
  ∀ s t : State, s.fault ≠ .none → s.inputs.head? ≠ some (.action .hardwareReset) →
    step s = .next t → t.fault = s.fault

/-- R280, I13 (how a hang is kept is the model's own choice, log 10; the refusal of an overlapping
command is I14, log 11): a hung instance stays hung and sends nothing, whatever comes but a hardware
reset, and a command issued to it has no meaning. -/
def Obligations.HungInstanceStaysStuck : Prop :=
  (∀ s t : State, s.wait ≠ none → s.inputs.head? ≠ some (.action .hardwareReset) →
    step s = .next t → t.wait = s.wait ∧ t.trace = s.trace ∧ SameDecoder s t ∧ SameStaging s t) ∧
  ∀ (s : State) (i : Instr), s.wait ≠ none → exec i s = .refused .overlappingCommand

/-- R97: a command that ends gives exactly one response, of a kind its row "produced by" allows, as
the last thing it sends; a command that hangs gives none. -/
def Obligations.OneResponsePerCommand : Prop :=
  ∀ (i : Instr) (s t : State), exec i s = .next t →
    (t.wait = none ∧ ∃ r, mayRespond i r = true ∧ responses t = .response r :: responses s ∧
      t.trace.head? = some (.response r)) ∨
    (t.wait ≠ none ∧ responses t = responses s)

/-- R44, R97, R238: the 2-bit values of `FAULT` and `est`, and the record a command that ends gives the
host: kind 3 with the value of `FAULT` exactly on an instance that is faulted when it responds, else
the kind of the command's row; the values 3 are never produced. -/
def Obligations.ResponseCodes : Prop :=
  (FaultCode.none.bits = 0#2 ∧ FaultCode.illegalCmd.bits = 1#2 ∧ FaultCode.allocFail.bits = 2#2) ∧
  (EncStatus.ok.bits = 0#2 ∧ EncStatus.einval.bits = 1#2 ∧ EncStatus.emsgsize.bits = 2#2) ∧
  (∀ c : FaultCode, c.bits ≠ 3#2) ∧ (∀ e : EncStatus, e.bits ≠ 3#2) ∧
  ∀ (i : Instr) (s t : State), exec i s = .next t → t.wait = none →
    ∃ r, t.trace.head? = some (.response r) ∧
      r.record.kind = (if t.fault ≠ .none then 3 else if i = .decEnd then 1
        else if i = .encFrame then 2 else 0) ∧
      r.record.reason = (if t.fault ≠ .none then some t.fault.bits else none) ∧
      r.record.code = (if t.fault = .none ∧ i = .decEnd then some s.decPend else none) ∧
      (r.record.est.isSome ↔ t.fault = .none ∧ i = .encFrame) ∧
      (r.record.oh.isSome ↔ r.record.est = some 0#2) ∧
      (r.record.est = some 1#2 ∨ r.record.est = some 2#2 → r.record.olen = some 0)

/-! ## Reset -/

/-- R49, R270 for the registers whose reset value the spec gives, in the model's `State.reset`. The
configuration, the handle and the staged bytes there are the model's choice (log 1 to 4) and are not
stated. -/
def Obligations.ResetRegisterValues : Prop :=
  State.reset.fault = .none ∧ DecoderFresh State.reset ∧ State.reset.decPend = 0 ∧
  State.reset.encN = 0 ∧ State.reset.encOvf = false ∧ State.reset.wait = none ∧
  frameOwner State.reset State.reset.decBuf = some .dec ∧
  fbRead State.reset State.reset.decBuf 7 = some State.reset.cfg.tagInit

/-- R270, R271, R49: from every state, a hardware reset whose `Acquire()` succeeds leaves the
registers at their reset values, the decoder owning the new buffer and the pool every other,
`TAG_INIT` in the tag byte and every other frame-buffer byte unspecified; it gives no response and
no delivery. What stays (the output side, the staged bytes) is the model's reading, log 15 and log
4. -/
def Obligations.HardwareResetGranted : Prop :=
  ∀ (s : State) (h : Nat), 8 ≤ s.cfg.bufSize → poolAnswer (powerOn s) = .ok h →
    h < 2 ^ s.cfg.bufIdW →
    ∃ t, act .hardwareReset s = .next t ∧
      t.fault = .none ∧ t.wait = none ∧ t.decBuf = h ∧ DecoderFresh t ∧ t.decPend = 0 ∧
      t.encN = 0 ∧ t.encOvf = false ∧
      (∀ k, frameOwner t k = if k = h then some .dec else none) ∧
      (∀ k off, fbRead t k off =
        if k = h ∧ off = 7 then some s.cfg.tagInit else none) ∧
      responses t = responses s ∧ deliveries t = deliveries s ∧
      t.cfg = s.cfg ∧ t.encIn = s.encIn ∧ SameOutputSide s t ∧ t.inputs = s.inputs ∧
      t.codes = s.codes

/-- 70_reset_and_hazards.md section 1: a hardware reset whose `Acquire()` fails comes up with `FAULT
= ALLOC_FAIL`, and every command word it is given answers `FAULTED(ALLOC_FAIL)` and changes nothing.
That it ends a hang and leaves every frame buffer with the pool is the model's reading, log 15. -/
def Obligations.HardwareResetFailed : Prop :=
  ∀ s : State, poolAnswer (powerOn s) = .fail →
    ∃ t, act .hardwareReset s = .next t ∧ t.fault = .allocFail ∧ t.wait = none ∧
      t.decPend = 0 ∧ t.encN = 0 ∧ t.encOvf = false ∧
      (∀ k, frameOwner t k = none) ∧ responses t = responses s ∧ deliveries t = deliveries s ∧
      ∀ w : Word, runWord w t = .next { t with
        trace := .response (.faulted .allocFail) :: t.trace }

/-! ## CRC generator -/

/-- R122: every entry of the listed table is what the generating loop computes, and the four spot
values. -/
def Obligations.CrcTableIsGenerated : Prop :=
  (∀ i : Byte, crcTable i = crcTableGen i) ∧ crcTable 0x00#8 = 0x0000#16 ∧
  crcTable 0x01#8 = 0x1189#16 ∧ crcTable 0x80#8 = 0x8408#16 ∧ crcTable 0xFF#8 = 0x0F78#16

/-- R127 (R127 is the spec's own inference): the table-driven update equals eight steps of the
bit-serial form, for every input. -/
def Obligations.CrcTableFormIsSerialForm : Prop :=
  ∀ (c : Word) (b : Byte), crc16Update c b = crc16UpdateSerial c b

/-- R126 (R126 is the spec's own inference): the residue of every list of bytes with its check
sequence, low byte first, is `0xF0B8`. -/
def Obligations.CrcResidueIsGoodFcs : Prop :=
  ∀ l : List Byte, crc16 (l ++ [(fcs16 l).extractLsb' 0 8, (fcs16 l).extractLsb' 8 8]) = 0xF0B8#16

/-- R128 (sanity; R128 is the spec's own inference): the check value over the ASCII bytes of
"123456789". -/
def Obligations.CrcCheckValue : Prop :=
  crc16 [0x31#8, 0x32#8, 0x33#8, 0x34#8, 0x35#8, 0x36#8, 0x37#8, 0x38#8, 0x39#8] = 0x6F91#16 ∧
  fcs16 [0x31#8, 0x32#8, 0x33#8, 0x34#8, 0x35#8, 0x36#8, 0x37#8, 0x38#8, 0x39#8] = 0x906E#16

/-! ## Decoder -/

/-- R142, R141: `DEC_RESET`, the word `0x1000`, clears both flags, restarts the checksum, rewinds
the length, writes the tag byte at offset 7 of the buffer it keeps, responds `ACK`, and changes
nothing else. -/
def Obligations.DecResetCompletes : Prop :=
  decode 0x1000#16 = .ok .decReset ∧
  ∀ s : State, Ready s → 8 ≤ s.cfg.bufSize →
    exec .decReset s = .next { s with
      decEsc := false, decDiscard := false, decCrc := 0xFFFF#16, decLen := 0,
      fb := s.fb.write (fbAddr s.cfg s.decBuf 7) s.cfg.tagInit,
      trace := .response .ack :: s.trace }

/-- R144, R148, R165, R231: a `FLAG` that meets a frame that is not well-formed delivers nothing,
resets the decoder whatever the flags hold, and responds `ACK` like any other. -/
def Obligations.FlagDropsMalformedFrame : Prop :=
  ∀ s : State, Ready s → 8 ≤ s.cfg.bufSize → ¬ WellFormedFrame s →
    exec (.decByte 0x7E#8) s = .next { s with
      decEsc := false, decDiscard := false, decCrc := 0xFFFF#16, decLen := 0,
      fb := s.fb.write (fbAddr s.cfg s.decBuf 7) s.cfg.tagInit,
      trace := .response .ack :: s.trace }

/-- R145, R146, R77, R256: an accepted delivery sends the handle and the length less 2, hands the
buffer over, takes a new one from the pool before the reset procedure writes its tag, and changes
neither `DEC.pend` nor any byte of any other buffer. The handed-over buffer is the consumer's, or
the pool's where the consumer has given it back before the pool answers; only then may the new
handle be the old one. -/
def Obligations.FlagDeliversAcceptedFrame : Prop :=
  ∀ (s : State) (h : Nat), Ready s → 8 ≤ s.cfg.bufSize → WellFormedFrame s →
    answeredCode (consumerAnswer s) = some 0 → poolAnswer (askingPool s) = .ok h →
    poolMayGive (askingPool s) h = true →
    ∃ t, exec (.decByte 0x7E#8) s = .next t ∧
      t.trace = .response .ack :: .acquire (.ok h) ::
        .deliver s.cfg.instId s.decBuf (s.decLen - 2) (fbBytes s s.decBuf 7 (s.decLen - 2 + 1))
          (consumerAnswer s) :: s.trace ∧
      t.decBuf = h ∧ (h = s.decBuf → consumerAnswer s = .acceptAndRelease) ∧ DecoderFresh t ∧ t.decPend = s.decPend ∧ Ready t ∧
      (∀ k, frameOwner t k = if k = h then some .dec
        else if k = s.decBuf then acceptedOwner (consumerAnswer s) else frameOwner s k) ∧
      (∀ k off, fbRead t k off =
        if k = h then (if off = 7 then some s.cfg.tagInit else none) else fbRead s k off) ∧
      SameStaging s t ∧ SameOutputSide s t ∧ t.cfg = s.cfg ∧ t.inputs = s.inputs ∧
      t.codes = s.codes.tail ∧ t.acquires = s.acquires.tail

/-- R147, R145, R148: a rejected delivery keeps the buffer, records the code if none is recorded
yet, resets the decoder and responds `ACK`; no ownership changes and no byte but the tag. -/
def Obligations.FlagDeliversRejectedFrame : Prop :=
  ∀ (s : State) (c : Code), Ready s → 8 ≤ s.cfg.bufSize → WellFormedFrame s →
    consumerAnswer s = .code c → c ≠ 0 →
    ∃ t, exec (.decByte 0x7E#8) s = .next t ∧
      t.trace = .response .ack ::
        .deliver s.cfg.instId s.decBuf (s.decLen - 2) (fbBytes s s.decBuf 7 (s.decLen - 2 + 1))
          (.code c) :: s.trace ∧
      t.decBuf = s.decBuf ∧ DecoderFresh t ∧
      t.decPend = (if s.decPend = 0 then c else s.decPend) ∧ Ready t ∧
      t.fbOwner = s.fbOwner ∧
      t.fb = s.fb.write (fbAddr s.cfg s.decBuf 7) s.cfg.tagInit ∧
      SameStaging s t ∧ SameOutputSide s t ∧ t.cfg = s.cfg ∧ t.inputs = s.inputs ∧
      t.codes = s.codes.tail ∧ t.acquires = s.acquires

/-- R235, R233, R164's exception: an accepted delivery whose `Acquire()` fails raises `ALLOC_FAIL`;
the buffer is handed over, `DecReset()` has not run, no register but `FAULT` and no byte has
changed. That `DEC.buf` keeps its value is log 12. -/
def Obligations.AcceptedDeliveryAllocFail : Prop :=
  ∀ s : State, Ready s → WellFormedFrame s →
    answeredCode (consumerAnswer s) = some 0 → poolAnswer (askingPool s) = .fail →
    ∃ t, exec (.decByte 0x7E#8) s = .next t ∧
      t.trace = .response (.faulted .allocFail) :: .acquire .fail ::
        .deliver s.cfg.instId s.decBuf (s.decLen - 2) (fbBytes s s.decBuf 7 (s.decLen - 2 + 1))
          (consumerAnswer s) :: s.trace ∧
      t.fault = .allocFail ∧ t.wait = none ∧ SameDecoder s t ∧ t.fb = s.fb ∧
      (∀ k, frameOwner t k =
        if k = s.decBuf then acceptedOwner (consumerAnswer s) else frameOwner s k) ∧
      SameStaging s t ∧ SameOutputSide s t ∧ t.cfg = s.cfg ∧ t.inputs = s.inputs

/-- R280, R145 (how a hang is kept is the model's own choice, log 10): a delivery, or the
acquisition after it, that is never answered sends its message, gives no response, and leaves every
register as it stands. -/
def Obligations.FlagHangsWithoutAnswer : Prop :=
  (∀ s : State, Ready s → WellFormedFrame s → consumerAnswer s = .silent →
    ∃ t, exec (.decByte 0x7E#8) s = .next t ∧ t.wait = some .consumer ∧
      t.trace = .deliver s.cfg.instId s.decBuf (s.decLen - 2)
        (fbBytes s s.decBuf 7 (s.decLen - 2 + 1)) .silent :: s.trace ∧
      t.fault = .none ∧ SameDecoder s t ∧ t.fb = s.fb ∧ t.fbOwner = s.fbOwner) ∧
  ∀ s : State, Ready s → WellFormedFrame s → answeredCode (consumerAnswer s) = some 0 →
    poolAnswer (askingPool s) = .silent →
    ∃ t, exec (.decByte 0x7E#8) s = .next t ∧ t.wait = some .pool ∧
      t.trace = .acquire .silent :: .deliver s.cfg.instId s.decBuf (s.decLen - 2)
        (fbBytes s s.decBuf 7 (s.decLen - 2 + 1)) (consumerAnswer s) :: s.trace ∧
      t.fault = .none ∧ SameDecoder s t ∧ t.fb = s.fb ∧
      ∀ k, frameOwner t k =
        if k = s.decBuf then acceptedOwner (consumerAnswer s) else frameOwner s k

/-- R149: in discard mode every byte but `FLAG`, `ESC` included, changes nothing. -/
def Obligations.DiscardModeSkipsByte : Prop :=
  ∀ (s : State) (b : Byte), Ready s → b ≠ 0x7E#8 → s.decDiscard = true →
    exec (.decByte b) s = .next { s with trace := .response .ack :: s.trace }

/-- R151: `ESC` outside discard mode with no escape pending sets `DEC.esc` and is not written,
counted or folded. -/
def Obligations.EscapeMarkerSetsEsc : Prop :=
  ∀ s : State, Ready s → s.decDiscard = false → s.decEsc = false →
    exec (.decByte 0x7D#8) s = .next { s with
      decEsc := true, trace := .response .ack :: s.trace }

/-- R152, R150: a data byte, or any byte after an escape, that finds the buffer full sets
`DEC.discard`, clears `DEC.esc`, and is neither stored nor folded. -/
def Obligations.FullBufferEntersDiscard : Prop :=
  ∀ (s : State) (b : Byte), Ready s → b ≠ 0x7E#8 → s.decDiscard = false →
    (s.decEsc = true ∨ b ≠ 0x7D#8) → s.decLen = s.cfg.cap →
    exec (.decByte b) s = .next { s with
      decEsc := false, decDiscard := true, trace := .response .ack :: s.trace }

/-- R153, R150, R64: a data byte, un-transformed if it follows an escape, is written at offset `8 +
DEC.len`, counted, and folded into the checksum; nothing else changes. -/
def Obligations.DataByteIsAppended : Prop :=
  ∀ (s : State) (b v : Byte), Ready s → b ≠ 0x7E#8 → s.decDiscard = false →
    (s.decEsc = true ∧ v = b ^^^ 0x20#8 ∨ s.decEsc = false ∧ b ≠ 0x7D#8 ∧ v = b) →
    s.decLen < s.cfg.cap →
    exec (.decByte b) s = .next { s with
      decEsc := false,
      fb := s.fb.write (fbAddr s.cfg s.decBuf (8 + s.decLen)) v,
      decLen := s.decLen + 1, decCrc := crc16Update s.decCrc v,
      trace := .response .ack :: s.trace }

/-- R160: `DEC_END`, the word `0x3000`, responds with the pending status, clears it, and changes
nothing else. -/
def Obligations.DecEndCompletes : Prop :=
  decode 0x3000#16 = .ok .decEnd ∧
  ∀ s : State, Ready s →
    exec .decEnd s = .next { s with
      decPend := 0, trace := .response (.status s.decPend) :: s.trace }

/-- R166, R147, R160 (R166 is the spec's own inference): after a rejected delivery the call's
`DEC_END` returns that code if it was the first nonzero one and otherwise the earlier one, and the
decoder still has the same buffer. -/
def Obligations.RejectionReachesDecEnd : Prop :=
  ∀ (s : State) (c : Code), Ready s → 8 ≤ s.cfg.bufSize → WellFormedFrame s →
    consumerAnswer s = .code c → c ≠ 0 →
    ∃ t, runCommands [.decByte 0x7E#8, .decEnd] s = .next t ∧ t.decBuf = s.decBuf ∧
      t.trace.head? = some (.response (.status (if s.decPend = 0 then c else s.decPend))) ∧
      t.decPend = 0

/-- R164 (R164 is the spec's own inference): the first `FLAG` puts the decoder back, whatever came
before; the one exception is an accepted delivery whose `Acquire()` fails. (A collaborator that
never answers hangs the command instead, R280.) -/
def Obligations.FlagResynchronises : Prop :=
  ∀ s t : State, Ready s → exec (.decByte 0x7E#8) s = .next t → t.wait = none →
    (t.fault = .none ∧ DecoderFresh t) ∨
    (t.fault = .allocFail ∧ WellFormedFrame s ∧ answeredCode (consumerAnswer s) = some 0 ∧
      poolAnswer (askingPool s) = .fail ∧ SameDecoder s t)

/-- The memory frame of `DEC_BYTE` (R60, R63, R64): every byte of every frame buffer reads as
before, but the byte at the write cursor for a data byte, and for a `FLAG` the tag byte of the
decoder's buffer and, if that buffer has just been acquired, the rest of it. -/
def Obligations.DecByteMemoryFrame : Prop :=
  ∀ (s t : State) (b : Byte), exec (.decByte b) s = .next t → ∀ h off : Nat,
    (b ≠ 0x7E#8 → h = s.decBuf → off ≠ 8 + s.decLen) →
    (b = 0x7E#8 → h = t.decBuf → ¬ JustAcquired s t h ∧ off ≠ 7) →
    fbRead t h off = fbRead s h off

/-- R60, R62, R64: what each command stores in memory, by reading every byte. `DEC_RESET` writes the
tag byte and no other; a data byte is read back at the write cursor; `DEC_END` and the encoder's
commands store nothing in frame buffers; no command but `ENC_FRAME` stores in output buffers. -/
def Obligations.CommandMemoryFrames : Prop :=
  (∀ s t : State, Ready s → exec .decReset s = .next t → ∀ h off : Nat,
    fbRead t h off = if h = s.decBuf ∧ off = 7 then some s.cfg.tagInit else fbRead s h off) ∧
  (∀ (s t : State) (b v : Byte), Ready s → b ≠ 0x7E#8 → s.decDiscard = false →
    (s.decEsc = true ∧ v = b ^^^ 0x20#8 ∨ s.decEsc = false ∧ b ≠ 0x7D#8 ∧ v = b) →
    s.decLen < s.cfg.cap → exec (.decByte b) s = .next t →
    fbRead t s.decBuf (8 + s.decLen) = some v) ∧
  (∀ (i : Instr) (s t : State), i ≠ .decReset → (∀ b, i ≠ .decByte b) → exec i s = .next t →
    ∀ h off : Nat, fbRead t h off = fbRead s h off) ∧
  ∀ (i : Instr) (s t : State), i ≠ .encFrame → exec i s = .next t →
    ∀ o off : Nat, obRead t o off = obRead s o off

/-- R63: no command writes a header byte at offsets 0 to 6 of any frame buffer; those of a buffer
just acquired are unspecified (R65). -/
def Obligations.HeaderBytesUntouched : Prop :=
  ∀ (i : Instr) (s t : State), exec i s = .next t → ∀ h off : Nat, off < 7 →
    fbRead t h off = fbRead s h off ∨
      (h = t.decBuf ∧ JustAcquired s t h ∧ fbRead t h off = none)

/-- R207, R282, R48: decoder commands touch neither the staging nor the output side, and encoder
commands touch neither the decoder nor the frame-buffer side. -/
def Obligations.UnitsShareNoState : Prop :=
  (∀ (i : Instr) (s t : State), (i = .decReset ∨ (∃ b, i = .decByte b) ∨ i = .decEnd) →
    exec i s = .next t → SameStaging s t ∧ SameOutputSide s t) ∧
  ∀ (i : Instr) (s t : State), (i = .encClear ∨ (∃ b, i = .encLoad b) ∨ i = .encFrame) →
    exec i s = .next t → SameDecoder s t ∧ SameFrameSide s t

/-- R74 (R74 is the spec's own inference): the core never reads frame-buffer memory. A change to it
changes no register, ownership, wait or response of any command. -/
def Obligations.FrameMemoryNeverRead : Prop :=
  ∀ (i : Instr) (s t : State) (m : Memory), exec i s = .next t →
    ∃ u, exec i { s with fb := m } = .next u ∧
      u.fault = t.fault ∧ u.wait = t.wait ∧ SameDecoder t u ∧ SameStaging t u ∧
      SameOutputSide t u ∧ u.fbOwner = t.fbOwner ∧ responses u = responses t

/-- R129, R145, R140, R64, R66: from a state that meets the invariant, a command makes at most one
delivery, and a delivered frame is at least one byte long, carries the tag, and with the two check
bytes that stand behind it in the buffer has the residue `GOOD_FCS`, the value of `DEC.crc`. (That
it is the frame that was sent is not claimed.) -/
def Obligations.DeliveredFrameHasGoodResidue : Prop :=
  ∀ (i : Instr) (s t : State), MachineInv s → exec i s = .next t →
    deliveries t = deliveries s ∨
    ∃ (frame : List Byte) (lo hi : Byte) (a : ConsumerAnswer),
      i = .decByte 0x7E#8 ∧ 1 ≤ frame.length ∧ s.decLen = frame.length + 2 ∧
      fbBytes s s.decBuf 8 s.decLen = (frame ++ [lo, hi]).map some ∧
      s.decCrc = 0xF0B8#16 ∧ crc16 (frame ++ [lo, hi]) = 0xF0B8#16 ∧
      deliveries t = .deliver s.cfg.instId s.decBuf frame.length
        (some s.cfg.tagInit :: frame.map some) a :: deliveries s

/-- R162 (R162 is the spec's own inference): chunking invariance. Two lists of decode commands that
feed the same bytes, however split into calls, from the same state (so with the same answers of the
collaborators) make the same deliveries and end in the same state but for the pending status and the
responses; one completes if the other does. -/
def Obligations.ChunkingInvariance : Prop :=
  ∀ (xs ys : List Instr) (s t : State),
    xs.all isDecodeCommand = true → ys.all isDecodeCommand = true → fedBytes xs = fedBytes ys →
    Ready s → runCommands xs s = .next t → t.wait = none →
    ∃ u, runCommands ys s = .next u ∧ unchunked u = unchunked t

/-! ## Encoder -/

/-- R191: `ENC_CLEAR`, the word `0x4000`, empties the staging and changes nothing else. -/
def Obligations.EncClearCompletes : Prop :=
  decode 0x4000#16 = .ok .encClear ∧
  ∀ s : State, Ready s →
    exec .encClear s = .next { s with
      encN := 0, encOvf := false, trace := .response .ack :: s.trace }

/-- R192, R41 to R43: `ENC_LOAD b`, the word `0x5000 | b`, stores the byte at index `ENC.n` and
advances while there is room; on a full staging it drops the byte and sets `ENC.ovf`. -/
def Obligations.EncLoadCompletes : Prop :=
  (∀ b : Byte, decode (0x5000#16 ||| b.setWidth 16) = .ok (.encLoad b)) ∧
  (∀ (s : State) (b : Byte), Ready s → s.encN < s.cfg.encInMax →
    exec (.encLoad b) s = .next { s with
      encIn := s.encIn.set s.encN b, encN := s.encN + 1, trace := .response .ack :: s.trace }) ∧
  ∀ (s : State) (b : Byte), Ready s → s.cfg.encInMax ≤ s.encN →
    exec (.encLoad b) s = .next { s with
      encOvf := true, trace := .response .ack :: s.trace }

/-- R196, R236, R203: a staged frame no longer than `HDR_LEN` gives `EINVAL`; nothing is allocated
and the staging is emptied. -/
def Obligations.EncFrameTooShort : Prop :=
  ∀ s : State, Ready s → s.encOvf = false → s.encN ≤ s.cfg.hdrLen →
    exec .encFrame s = .next { s with
      encN := 0, encOvf := false,
      trace := .response (.encResult .einval 0 none) :: s.trace }

/-- R202, R193, R198 to R200, R67: a frame longer than `HDR_LEN` whose wire form fits gives
`ENC_RESULT(OK, L, o)`; the host owns `o`, whose first `L` bytes are the wire form and whose other
bytes are unspecified; no other output buffer changes. -/
def Obligations.EncFrameSucceeds : Prop :=
  ∀ (s : State) (o : Nat), Ready s → s.encOvf = false → s.cfg.hdrLen < s.encN →
    allocatorAnswer (clearStaging s) = .ok o → allocatorMayGive s o = true →
    (wireBytes (s.encIn.take s.encN)).length ≤ s.cfg.outCap →
    ∃ t, exec .encFrame s = .next t ∧
      t.trace = .response (.encResult .ok (wireBytes (s.encIn.take s.encN)).length (some o)) ::
        .outAlloc (.ok o) :: s.trace ∧
      Ready t ∧ t.encN = 0 ∧ t.encOvf = false ∧ t.encIn = s.encIn ∧
      (∀ k, outOwner t k = if k = o then some .host else outOwner s k) ∧
      (∀ k i, obRead t k i = if k = o then (wireBytes (s.encIn.take s.encN))[i]? else obRead s k i) ∧
      SameDecoder s t ∧ SameFrameSide s t ∧ t.cfg = s.cfg ∧ t.inputs = s.inputs ∧
      t.outAllocs = s.outAllocs.tail

/-- R201, R237, R43: a frame whose wire form exceeds `OUT_CAP`, or whose staging overflowed, gives
`EMSGSIZE`; the output buffer is released and no other output buffer changes. -/
def Obligations.EncFrameTooLarge : Prop :=
  ∀ (s : State) (o : Nat), Ready s →
    (s.encOvf = true ∨ s.encOvf = false ∧ s.cfg.hdrLen < s.encN ∧
      s.cfg.outCap < (wireBytes (s.encIn.take s.encN)).length) →
    allocatorAnswer (clearStaging s) = .ok o → allocatorMayGive s o = true →
    ∃ t, exec .encFrame s = .next t ∧
      t.trace = .response (.encResult .emsgsize 0 none) :: .outRelease o ::
        .outAlloc (.ok o) :: s.trace ∧
      Ready t ∧ t.encN = 0 ∧ t.encOvf = false ∧ t.encIn = s.encIn ∧
      (∀ k, outOwner t k = outOwner s k) ∧
      (∀ k i, k ≠ o → obRead t k i = obRead s k i) ∧
      SameDecoder s t ∧ SameFrameSide s t ∧ t.cfg = s.cfg ∧ t.inputs = s.inputs ∧
      t.outAllocs = s.outAllocs.tail

/-- R235, R203, R239: an output allocation that fails raises `ALLOC_FAIL` with the staging already
emptied; one that is never answered hangs (R280; log 10). No output byte changes. -/
def Obligations.EncFrameAllocFails : Prop :=
  ∀ s : State, Ready s → (s.encOvf = true ∨ s.cfg.hdrLen < s.encN) →
    (allocatorAnswer (clearStaging s) = .fail →
      ∃ t, exec .encFrame s = .next t ∧ t.fault = .allocFail ∧ t.wait = none ∧
        t.trace = .response (.faulted .allocFail) :: .outAlloc .fail :: s.trace ∧
        t.encN = 0 ∧ t.encOvf = false ∧ t.encIn = s.encIn ∧ t.ob = s.ob ∧ t.obOwner = s.obOwner ∧
        SameDecoder s t ∧ SameFrameSide s t ∧ t.cfg = s.cfg ∧ t.inputs = s.inputs ∧
        t.outAllocs = s.outAllocs.tail) ∧
    (allocatorAnswer (clearStaging s) = .silent →
      ∃ t, exec .encFrame s = .next t ∧ t.fault = .none ∧ t.wait = some .outAllocator ∧
        t.trace = .outAlloc .silent :: s.trace ∧
        t.encN = 0 ∧ t.encOvf = false ∧ t.encIn = s.encIn ∧ t.ob = s.ob ∧ t.obOwner = s.obOwner ∧
        SameDecoder s t ∧ SameFrameSide s t ∧ t.cfg = s.cfg ∧ t.inputs = s.inputs ∧
        t.outAllocs = s.outAllocs.tail)

/-- R190, R194, R195, R150, R151 (R195 is the spec's own inference): a byte needs escaping exactly
when it is `FLAG`, `ESC` or below `0x20`; its stuffing is then `ESC` and the masked byte, else the
byte itself; it never holds `FLAG`, and the decoder's steps map it back: fed to a decoder with room,
it appends that byte. -/
def Obligations.StuffingIsInvertible : Prop :=
  (∀ v : Byte, needsEsc v = true ↔ v = 0x7E#8 ∨ v = 0x7D#8 ∨ v < 0x20#8) ∧
  (∀ v : Byte, stuff v =
    if v = 0x7E#8 ∨ v = 0x7D#8 ∨ v < 0x20#8 then [0x7D#8, v ^^^ 0x20#8] else [v]) ∧
  (∀ v : Byte, 0x7E#8 ∉ stuff v) ∧
  (∀ v : Byte, needsEsc v = true →
    0x20#8 ≤ v ^^^ 0x20#8 ∧ v ^^^ 0x20#8 ≤ 0x3F#8 ∨ v ^^^ 0x20#8 = 0x5D#8 ∨
      v ^^^ 0x20#8 = 0x5E#8) ∧
  (stuff 0x7E#8 = [0x7D#8, 0x5E#8] ∧ stuff 0x7D#8 = [0x7D#8, 0x5D#8] ∧
    stuff 0x01#8 = [0x7D#8, 0x21#8] ∧ stuff 0x00#8 = [0x7D#8, 0x20#8] ∧
    stuff 0x1F#8 = [0x7D#8, 0x3F#8]) ∧
  ∀ (s : State) (v : Byte), Ready s → s.decDiscard = false → s.decEsc = false →
    s.decLen < s.cfg.cap →
    ∃ t, runCommands ((stuff v).map .decByte) s = .next t ∧ Ready t ∧
      t.fb = s.fb.write (fbAddr s.cfg s.decBuf (8 + s.decLen)) v ∧
      t.decLen = s.decLen + 1 ∧ t.decCrc = crc16Update s.decCrc v ∧
      t.decEsc = false ∧ t.decDiscard = false ∧ deliveries t = deliveries s

/-- R200, R198, R199: the wire form starts and ends with `FLAG` and holds no other. -/
def Obligations.WireFlagsOnlyAtEnds : Prop :=
  ∀ frame : List Byte, ∃ body : List Byte,
    wireBytes frame = 0x7E#8 :: (body ++ [0x7E#8]) ∧ 0x7E#8 ∉ body

/-- R204 (R204 is the spec's own inference): the wire length, and its bounds. -/
def Obligations.WireLengthFormula : Prop :=
  ∀ frame : List Byte,
    (wireBytes frame).length =
      2 + (frame.map stuffedWidth).sum + stuffedWidth ((fcs16 frame).extractLsb' 0 8) +
        stuffedWidth ((fcs16 frame).extractLsb' 8 8) ∧
    frame.length + 4 ≤ (wireBytes frame).length ∧
    (wireBytes frame).length ≤ 2 * frame.length + 6

/-- R205, R201 (R205 is the spec's own inference): which frames fit the output buffer. Every frame
of at most `MRU + HDR_LEN - 1` bytes does; one of `MRU + HDR_LEN` bytes fails only when every frame
byte and both check bytes need escaping; every frame of `2 (MRU + HDR_LEN) + 2` bytes or more fails.
-/
def Obligations.WhichFramesFit : Prop :=
  ∀ (p : Params) (frame : List Byte),
    (frame.length + 1 ≤ p.mru + p.hdrLen → (wireBytes frame).length ≤ p.outCap) ∧
    (frame.length = p.mru + p.hdrLen → (p.outCap < (wireBytes frame).length ↔
      (∀ b ∈ frame, needsEsc b = true) ∧ needsEsc (lowByte (fcs16 frame)) = true ∧
        needsEsc (highByte (fcs16 frame)) = true)) ∧
    (2 * (p.mru + p.hdrLen) + 2 ≤ frame.length → p.outCap < (wireBytes frame).length)

/-- R42, R203: what lies in the staging past `ENC.n` is never read. -/
def Obligations.StagingPastEndNeverRead : Prop :=
  ∀ (s t : State) (l : List Byte), l.take s.encN = s.encIn.take s.encN →
    exec .encFrame s = .next t →
    exec .encFrame { s with encIn := l } = .next { t with encIn := l }

/-- R104, R192, R193: `ENCODE frame` from any staging encodes exactly `frame`: on an allocator that
gives `o` and a wire form that fits, the host gets the wire form in `o`. -/
def Obligations.EncodeCallEncodesItsFrame : Prop :=
  ∀ (s : State) (frame : List Byte) (o : Nat), Ready s →
    s.encIn.length = s.cfg.encInMax → s.cfg.hdrLen < frame.length →
    (wireBytes frame).length ≤ s.cfg.outCap →
    allocatorAnswer (clearStaging s) = .ok o → allocatorMayGive s o = true →
    ∃ t, runCommands (encodeCall frame) s = .next t ∧
      t.trace.head? = some (.response (.encResult .ok (wireBytes frame).length (some o))) ∧
      outOwner t o = some .host ∧
      ∀ i, obRead t o i = (wireBytes frame)[i]?

/-! ## The two units together -/

/-- R163 (R163 is the spec's own inference): the round trip. When `ENCODE F` responds `OK` with `L`
bytes in `o`, the frame and its check sequence fit the decoder, and the decoder is between frames,
then feeding those bytes delivers nothing before the last one, and the last one makes exactly one
delivery, of `F`. -/
def Obligations.RoundTrip : Prop :=
  ∀ (s t : State) (frame wire : List Byte) (o len : Nat), Ready s → 8 ≤ s.cfg.bufSize →
    s.encIn.length = s.cfg.encInMax →
    s.cfg.hdrLen < frame.length → frame.length + 2 ≤ s.cfg.cap →
    s.decLen = 0 → s.decEsc = false → s.decDiscard = false →
    runCommands (encodeCall frame) s = .next t →
    t.trace.head? = some (.response (.encResult .ok len (some o))) →
    (List.range len).map (obRead t o) = wire.map some →
    wire.getLast? = some 0x7E#8 ∧
    ∃ u, runCommands (wire.dropLast.map .decByte) t = .next u ∧ Ready u ∧
      deliveries u = deliveries t ∧ WellFormedFrame u ∧
      ∀ v, exec (.decByte 0x7E#8) u = .next v → ∃ a,
        deliveries v = .deliver s.cfg.instId s.decBuf frame.length
          (some s.cfg.tagInit :: frame.map some) a :: deliveries t

/-! ## Invariants -/

/-- The invariant holds of the state after reset. -/
def Obligations.ResetMeetsInvariant : Prop :=
  MachineInv State.reset

/-- Every step, of a command, an illegal word, a hardware reset or another party's action, keeps the
invariant: canonical memories and ownership maps, R33 (length within capacity), R39 (flag
exclusivity), R41 to R43 (staging), R46 and R76 (single owner), R62 (tag), and R64 with R153 (the
assembled bytes are in the buffer and `DEC.crc` is their checksum). -/
def Obligations.StepKeepsInvariant : Prop :=
  ∀ s t : State, MachineInv s → step s = .next t → MachineInv t

/-- R39 (R39 is the spec's own inference): in every reachable state `DEC.esc` and `DEC.discard`
never hold together: it is so at reset and every step keeps it. -/
def Obligations.FlagExclusivity : Prop :=
  ¬ (State.reset.decEsc = true ∧ State.reset.decDiscard = true) ∧
  ∀ s t : State, ¬ (s.decEsc = true ∧ s.decDiscard = true) → step s = .next t →
    ¬ (t.decEsc = true ∧ t.decDiscard = true)

/-- R9 (R9 is the spec's own inference): `LEN_W` is the least width that holds every capacity, and
in every state that meets the invariant every counter fits it, as does every output length a command
responds with. -/
def Obligations.CountersFitLenW : Prop :=
  (∀ p : Params, max p.cap (max p.outCap p.encInMax) < 2 ^ p.lenW ∧
    ∀ w, max p.cap (max p.outCap p.encInMax) < 2 ^ w → p.lenW ≤ w) ∧
  (∀ s : State, MachineInv s → s.decLen < 2 ^ s.cfg.lenW ∧ s.encN < 2 ^ s.cfg.lenW) ∧
  ∀ (i : Instr) (s t : State) (est : EncStatus) (len : Nat) (oh : Option Nat),
    exec i s = .next t → t.wait = none →
    t.trace.head? = some (.response (.encResult est len oh)) → len < 2 ^ s.cfg.lenW

/-- R274: the parameters "are configuration and cannot be changed by any command", nor by anything
else a step does. -/
def Obligations.ConfigurationNeverChanges : Prop :=
  ∀ s t : State, step s = .next t → t.cfg = s.cfg

/-- R255, R76, R80, I18 (the refusal is the model's treatment of a broken duty, log 6): the pool's
duty is a premise of every delivery. An accepted delivery answered with a handle the pool may not
give has no meaning, and from a state that meets the invariant no command takes a buffer of the
consumer's from it. -/
def Obligations.PoolDutyIsPremise : Prop :=
  (∀ (s : State) (h : Nat), Ready s → WellFormedFrame s →
    answeredCode (consumerAnswer s) = some 0 →
    poolAnswer (askingPool s) = .ok h → poolMayGive (askingPool s) h = false →
    exec (.decByte 0x7E#8) s = .refused (.notOwnedByPool h)) ∧
  ∀ (i : Instr) (s t : State) (h : Nat), MachineInv s → exec i s = .next t →
    frameOwner s h = some .consumer → frameOwner t h = some .consumer

/-- R256, R276, R279 (the refusals are the model's treatment of broken duties, log 17): a party
other than the core changes a buffer only while it owns it; a release gives the buffer back and
changes no register. -/
def Obligations.PartiesUseOnlyTheirBuffers : Prop :=
  (∀ (s : State) (h off : Nat) (v : Byte), frameOwner s h = some .consumer →
    off < s.cfg.bufSize →
    act (.consumerWrite h off v) s = .next { s with
      fb := s.fb.write (fbAddr s.cfg h off) v }) ∧
  (∀ (s : State) (h off : Nat) (v : Byte), frameOwner s h ≠ some .consumer →
    act (.consumerWrite h off v) s = .refused (.notOwnedByActor h) ∧
    act (.consumerRelease h) s = .refused (.notOwnedByActor h)) ∧
  (∀ (s : State) (h : Nat), frameOwner s h = some .consumer →
    ∃ t, act (.consumerRelease h) s = .next t ∧
      (∀ k, frameOwner t k = if k = h then none else frameOwner s k) ∧
      t = { s with fbOwner := t.fbOwner }) ∧
  (∀ (s : State) (o : Nat), outOwner s o = some .host →
    ∃ t, act (.hostRelease o) s = .next t ∧
      (∀ k, outOwner t k = if k = o then none else outOwner s k) ∧
      t = { s with obOwner := t.obOwner }) ∧
  ∀ (s : State) (o : Nat), outOwner s o ≠ some .host →
    act (.hostRelease o) s = .refused (.notOwnedByActor o)
end

