-- ==== Sys2Proof/Laws/Assoc.lean ====
section
/-!
SUPPORT. Sparse data by key: reading after a change, and that every change keeps the canonical form.
-/
namespace Sys2Proof.Machine

variable {α : Type}

@[simp] theorem Assoc.lookup_nil (a : Nat) : Assoc.lookup ([] : List (Nat × α)) a = none := rfl

theorem Assoc.lookup_cons (k a : Nat) (v : α) (m : List (Nat × α)) :
    Assoc.lookup ((k, v) :: m) a = if k = a then some v else Assoc.lookup m a := rfl

/-- A set key reads back. -/
@[simp] theorem Assoc.lookup_insert_self (m : List (Nat × α)) (a : Nat) (x : α) :
    Assoc.lookup (Assoc.insert m a x) a = some x := by
  induction m with
  | nil => simp [Assoc.insert, Assoc.lookup_cons]
  | cons e m ih =>
    obtain ⟨k, v⟩ := e
    unfold Assoc.insert
    split
    · simp [Assoc.lookup_cons]
    · split
      · simp [Assoc.lookup_cons]
      · rw [Assoc.lookup_cons, if_neg (by omega), ih]

/-- Setting a key leaves every other key alone. -/
theorem Assoc.lookup_insert_ne (m : List (Nat × α)) {a b : Nat} (x : α) (h : b ≠ a) :
    Assoc.lookup (Assoc.insert m a x) b = Assoc.lookup m b := by
  induction m with
  | nil => simp [Assoc.insert, Assoc.lookup_cons, h.symm]
  | cons e m ih =>
    obtain ⟨k, v⟩ := e
    unfold Assoc.insert
    split
    · simp [Assoc.lookup_cons, h.symm]
    · split
      · subst_vars; simp [Assoc.lookup_cons, h.symm]
      · simp only [Assoc.lookup_cons, ih]

/-- Removing a range leaves every key outside it alone. -/
theorem Assoc.lookup_removeRange_out (m : List (Nat × α)) (lo n : Nat) {a : Nat}
    (h : a < lo ∨ lo + n ≤ a) :
    Assoc.lookup (Assoc.removeRange m lo n) a = Assoc.lookup m a := by
  induction m with
  | nil => rfl
  | cons e m ih =>
    obtain ⟨k, v⟩ := e
    simp only [Assoc.removeRange, List.filter_cons] at ih ⊢
    split
    · simp only [Assoc.lookup_cons, ih]
    · rename_i hk
      simp only [Bool.or_eq_true, decide_eq_true_eq] at hk
      rw [ih, Assoc.lookup_cons, if_neg (by omega)]

/-- A removed key has no value. -/
theorem Assoc.lookup_removeRange_in (m : List (Nat × α)) (lo n : Nat) {a : Nat}
    (h : lo ≤ a) (h' : a < lo + n) :
    Assoc.lookup (Assoc.removeRange m lo n) a = none := by
  induction m with
  | nil => rfl
  | cons e m ih =>
    obtain ⟨k, v⟩ := e
    simp only [Assoc.removeRange, List.filter_cons] at ih ⊢
    split
    · rename_i hk
      simp only [Bool.or_eq_true, decide_eq_true_eq] at hk
      rw [Assoc.lookup_cons, if_neg (by omega), ih]
    · exact ih

/-- The keys after setting one: that one and the old ones. -/
theorem Assoc.mem_keys_insert (m : List (Nat × α)) (a : Nat) (x : α) {k : Nat}
    (h : k ∈ (Assoc.insert m a x).map Prod.fst) : k = a ∨ k ∈ m.map Prod.fst := by
  induction m with
  | nil => simpa [Assoc.insert] using h
  | cons e m ih =>
    obtain ⟨j, v⟩ := e
    unfold Assoc.insert at h
    split at h
    · simpa using h
    · split at h
      · subst_vars; simpa using h
      · simp only [List.map_cons, List.mem_cons] at h ⊢
        rcases h with h | h
        · exact .inr (.inl h)
        · exact (ih h).imp_right .inr

/-- Setting a key keeps the canonical form. -/
theorem Assoc.sorted_insert {m : List (Nat × α)} (hm : Assoc.Sorted m) (a : Nat) (x : α) :
    Assoc.Sorted (Assoc.insert m a x) := by
  induction m with
  | nil => simp [Assoc.insert, Assoc.Sorted]
  | cons e m ih =>
    obtain ⟨k, v⟩ := e
    simp only [Assoc.Sorted, List.map_cons, List.pairwise_cons] at hm ⊢
    unfold Assoc.insert
    split
    · rename_i hlt
      simp only [List.map_cons, List.pairwise_cons, List.mem_cons]
      refine ⟨?_, hm.1, hm.2⟩
      rintro j (rfl | hj)
      · exact hlt
      · exact hlt.trans (hm.1 j hj)
    · split
      · subst_vars
        simpa using hm
      · simp only [List.map_cons, List.pairwise_cons]
        refine ⟨fun j hj => ?_, ih hm.2⟩
        rcases Assoc.mem_keys_insert m a x hj with rfl | hj
        · omega
        · exact hm.1 j hj

/-- Removing a range keeps the canonical form. -/
theorem Assoc.sorted_removeRange {m : List (Nat × α)} (hm : Assoc.Sorted m) (lo n : Nat) :
    Assoc.Sorted (Assoc.removeRange m lo n) :=
  List.Pairwise.sublist (List.filter_sublist.map _) hm

end Sys2Proof.Machine
end

