-- ==== Sys2Proof/Laws/State.lean ====
section
/-!
SUPPORT. One lemma per field per named update of State, so that no later proof unfolds a record update.
-/
namespace Sys2Proof.Machine

/-! ### emit -/

@[simp] theorem emit_cfg (s : State) (e : Event) :
    (emit s e).cfg = s.cfg := rfl

@[simp] theorem emit_fault (s : State) (e : Event) :
    (emit s e).fault = s.fault := rfl

@[simp] theorem emit_decBuf (s : State) (e : Event) :
    (emit s e).decBuf = s.decBuf := rfl

@[simp] theorem emit_decLen (s : State) (e : Event) :
    (emit s e).decLen = s.decLen := rfl

@[simp] theorem emit_decEsc (s : State) (e : Event) :
    (emit s e).decEsc = s.decEsc := rfl

@[simp] theorem emit_decDiscard (s : State) (e : Event) :
    (emit s e).decDiscard = s.decDiscard := rfl

@[simp] theorem emit_decCrc (s : State) (e : Event) :
    (emit s e).decCrc = s.decCrc := rfl

@[simp] theorem emit_decPend (s : State) (e : Event) :
    (emit s e).decPend = s.decPend := rfl

@[simp] theorem emit_encN (s : State) (e : Event) :
    (emit s e).encN = s.encN := rfl

@[simp] theorem emit_encIn (s : State) (e : Event) :
    (emit s e).encIn = s.encIn := rfl

@[simp] theorem emit_encOvf (s : State) (e : Event) :
    (emit s e).encOvf = s.encOvf := rfl

@[simp] theorem emit_fb (s : State) (e : Event) :
    (emit s e).fb = s.fb := rfl

@[simp] theorem emit_ob (s : State) (e : Event) :
    (emit s e).ob = s.ob := rfl

@[simp] theorem emit_fbOwner (s : State) (e : Event) :
    (emit s e).fbOwner = s.fbOwner := rfl

@[simp] theorem emit_obOwner (s : State) (e : Event) :
    (emit s e).obOwner = s.obOwner := rfl

@[simp] theorem emit_wait (s : State) (e : Event) :
    (emit s e).wait = s.wait := rfl

@[simp] theorem emit_inputs (s : State) (e : Event) :
    (emit s e).inputs = s.inputs := rfl

@[simp] theorem emit_codes (s : State) (e : Event) :
    (emit s e).codes = s.codes := rfl

@[simp] theorem emit_acquires (s : State) (e : Event) :
    (emit s e).acquires = s.acquires := rfl

@[simp] theorem emit_outAllocs (s : State) (e : Event) :
    (emit s e).outAllocs = s.outAllocs := rfl

@[simp] theorem emit_draws (s : State) (e : Event) :
    (emit s e).draws = s.draws := rfl

@[simp] theorem emit_trace (s : State) (e : Event) :
    (emit s e).trace = e :: s.trace := rfl

/-! ### respond -/

@[simp] theorem respond_cfg (s : State) (r : Response) :
    (respond s r).cfg = s.cfg := rfl

@[simp] theorem respond_fault (s : State) (r : Response) :
    (respond s r).fault = s.fault := rfl

@[simp] theorem respond_decBuf (s : State) (r : Response) :
    (respond s r).decBuf = s.decBuf := rfl

@[simp] theorem respond_decLen (s : State) (r : Response) :
    (respond s r).decLen = s.decLen := rfl

@[simp] theorem respond_decEsc (s : State) (r : Response) :
    (respond s r).decEsc = s.decEsc := rfl

@[simp] theorem respond_decDiscard (s : State) (r : Response) :
    (respond s r).decDiscard = s.decDiscard := rfl

@[simp] theorem respond_decCrc (s : State) (r : Response) :
    (respond s r).decCrc = s.decCrc := rfl

@[simp] theorem respond_decPend (s : State) (r : Response) :
    (respond s r).decPend = s.decPend := rfl

@[simp] theorem respond_encN (s : State) (r : Response) :
    (respond s r).encN = s.encN := rfl

@[simp] theorem respond_encIn (s : State) (r : Response) :
    (respond s r).encIn = s.encIn := rfl

@[simp] theorem respond_encOvf (s : State) (r : Response) :
    (respond s r).encOvf = s.encOvf := rfl

@[simp] theorem respond_fb (s : State) (r : Response) :
    (respond s r).fb = s.fb := rfl

@[simp] theorem respond_ob (s : State) (r : Response) :
    (respond s r).ob = s.ob := rfl

@[simp] theorem respond_fbOwner (s : State) (r : Response) :
    (respond s r).fbOwner = s.fbOwner := rfl

@[simp] theorem respond_obOwner (s : State) (r : Response) :
    (respond s r).obOwner = s.obOwner := rfl

@[simp] theorem respond_wait (s : State) (r : Response) :
    (respond s r).wait = s.wait := rfl

@[simp] theorem respond_inputs (s : State) (r : Response) :
    (respond s r).inputs = s.inputs := rfl

@[simp] theorem respond_codes (s : State) (r : Response) :
    (respond s r).codes = s.codes := rfl

@[simp] theorem respond_acquires (s : State) (r : Response) :
    (respond s r).acquires = s.acquires := rfl

@[simp] theorem respond_outAllocs (s : State) (r : Response) :
    (respond s r).outAllocs = s.outAllocs := rfl

@[simp] theorem respond_draws (s : State) (r : Response) :
    (respond s r).draws = s.draws := rfl

@[simp] theorem respond_trace (s : State) (r : Response) :
    (respond s r).trace = .response r :: s.trace := rfl

/-! ### raiseFault -/

@[simp] theorem raiseFault_cfg (s : State) (r : FaultCode) :
    (raiseFault s r).cfg = s.cfg := rfl

@[simp] theorem raiseFault_fault (s : State) (r : FaultCode) :
    (raiseFault s r).fault = r := rfl

@[simp] theorem raiseFault_decBuf (s : State) (r : FaultCode) :
    (raiseFault s r).decBuf = s.decBuf := rfl

@[simp] theorem raiseFault_decLen (s : State) (r : FaultCode) :
    (raiseFault s r).decLen = s.decLen := rfl

@[simp] theorem raiseFault_decEsc (s : State) (r : FaultCode) :
    (raiseFault s r).decEsc = s.decEsc := rfl

@[simp] theorem raiseFault_decDiscard (s : State) (r : FaultCode) :
    (raiseFault s r).decDiscard = s.decDiscard := rfl

@[simp] theorem raiseFault_decCrc (s : State) (r : FaultCode) :
    (raiseFault s r).decCrc = s.decCrc := rfl

@[simp] theorem raiseFault_decPend (s : State) (r : FaultCode) :
    (raiseFault s r).decPend = s.decPend := rfl

@[simp] theorem raiseFault_encN (s : State) (r : FaultCode) :
    (raiseFault s r).encN = s.encN := rfl

@[simp] theorem raiseFault_encIn (s : State) (r : FaultCode) :
    (raiseFault s r).encIn = s.encIn := rfl

@[simp] theorem raiseFault_encOvf (s : State) (r : FaultCode) :
    (raiseFault s r).encOvf = s.encOvf := rfl

@[simp] theorem raiseFault_fb (s : State) (r : FaultCode) :
    (raiseFault s r).fb = s.fb := rfl

@[simp] theorem raiseFault_ob (s : State) (r : FaultCode) :
    (raiseFault s r).ob = s.ob := rfl

@[simp] theorem raiseFault_fbOwner (s : State) (r : FaultCode) :
    (raiseFault s r).fbOwner = s.fbOwner := rfl

@[simp] theorem raiseFault_obOwner (s : State) (r : FaultCode) :
    (raiseFault s r).obOwner = s.obOwner := rfl

@[simp] theorem raiseFault_wait (s : State) (r : FaultCode) :
    (raiseFault s r).wait = s.wait := rfl

@[simp] theorem raiseFault_inputs (s : State) (r : FaultCode) :
    (raiseFault s r).inputs = s.inputs := rfl

@[simp] theorem raiseFault_codes (s : State) (r : FaultCode) :
    (raiseFault s r).codes = s.codes := rfl

@[simp] theorem raiseFault_acquires (s : State) (r : FaultCode) :
    (raiseFault s r).acquires = s.acquires := rfl

@[simp] theorem raiseFault_outAllocs (s : State) (r : FaultCode) :
    (raiseFault s r).outAllocs = s.outAllocs := rfl

@[simp] theorem raiseFault_draws (s : State) (r : FaultCode) :
    (raiseFault s r).draws = s.draws := rfl

@[simp] theorem raiseFault_trace (s : State) (r : FaultCode) :
    (raiseFault s r).trace = .response (.faulted r) :: s.trace := rfl

/-! ### setFrameOwner -/

@[simp] theorem setFrameOwner_cfg (s : State) (h : Nat) (w : FrameOwner) :
    (setFrameOwner s h w).cfg = s.cfg := rfl

@[simp] theorem setFrameOwner_fault (s : State) (h : Nat) (w : FrameOwner) :
    (setFrameOwner s h w).fault = s.fault := rfl

@[simp] theorem setFrameOwner_decBuf (s : State) (h : Nat) (w : FrameOwner) :
    (setFrameOwner s h w).decBuf = s.decBuf := rfl

@[simp] theorem setFrameOwner_decLen (s : State) (h : Nat) (w : FrameOwner) :
    (setFrameOwner s h w).decLen = s.decLen := rfl

@[simp] theorem setFrameOwner_decEsc (s : State) (h : Nat) (w : FrameOwner) :
    (setFrameOwner s h w).decEsc = s.decEsc := rfl

@[simp] theorem setFrameOwner_decDiscard (s : State) (h : Nat) (w : FrameOwner) :
    (setFrameOwner s h w).decDiscard = s.decDiscard := rfl

@[simp] theorem setFrameOwner_decCrc (s : State) (h : Nat) (w : FrameOwner) :
    (setFrameOwner s h w).decCrc = s.decCrc := rfl

@[simp] theorem setFrameOwner_decPend (s : State) (h : Nat) (w : FrameOwner) :
    (setFrameOwner s h w).decPend = s.decPend := rfl

@[simp] theorem setFrameOwner_encN (s : State) (h : Nat) (w : FrameOwner) :
    (setFrameOwner s h w).encN = s.encN := rfl

@[simp] theorem setFrameOwner_encIn (s : State) (h : Nat) (w : FrameOwner) :
    (setFrameOwner s h w).encIn = s.encIn := rfl

@[simp] theorem setFrameOwner_encOvf (s : State) (h : Nat) (w : FrameOwner) :
    (setFrameOwner s h w).encOvf = s.encOvf := rfl

@[simp] theorem setFrameOwner_fb (s : State) (h : Nat) (w : FrameOwner) :
    (setFrameOwner s h w).fb = s.fb := rfl

@[simp] theorem setFrameOwner_ob (s : State) (h : Nat) (w : FrameOwner) :
    (setFrameOwner s h w).ob = s.ob := rfl

@[simp] theorem setFrameOwner_fbOwner (s : State) (h : Nat) (w : FrameOwner) :
    (setFrameOwner s h w).fbOwner = Assoc.insert s.fbOwner h w := rfl

@[simp] theorem setFrameOwner_obOwner (s : State) (h : Nat) (w : FrameOwner) :
    (setFrameOwner s h w).obOwner = s.obOwner := rfl

@[simp] theorem setFrameOwner_wait (s : State) (h : Nat) (w : FrameOwner) :
    (setFrameOwner s h w).wait = s.wait := rfl

@[simp] theorem setFrameOwner_inputs (s : State) (h : Nat) (w : FrameOwner) :
    (setFrameOwner s h w).inputs = s.inputs := rfl

@[simp] theorem setFrameOwner_codes (s : State) (h : Nat) (w : FrameOwner) :
    (setFrameOwner s h w).codes = s.codes := rfl

@[simp] theorem setFrameOwner_acquires (s : State) (h : Nat) (w : FrameOwner) :
    (setFrameOwner s h w).acquires = s.acquires := rfl

@[simp] theorem setFrameOwner_outAllocs (s : State) (h : Nat) (w : FrameOwner) :
    (setFrameOwner s h w).outAllocs = s.outAllocs := rfl

@[simp] theorem setFrameOwner_draws (s : State) (h : Nat) (w : FrameOwner) :
    (setFrameOwner s h w).draws = s.draws := rfl

@[simp] theorem setFrameOwner_trace (s : State) (h : Nat) (w : FrameOwner) :
    (setFrameOwner s h w).trace = s.trace := rfl

/-! ### poolTakesBack -/

@[simp] theorem poolTakesBack_cfg (s : State) (h : Nat) :
    (poolTakesBack s h).cfg = s.cfg := rfl

@[simp] theorem poolTakesBack_fault (s : State) (h : Nat) :
    (poolTakesBack s h).fault = s.fault := rfl

@[simp] theorem poolTakesBack_decBuf (s : State) (h : Nat) :
    (poolTakesBack s h).decBuf = s.decBuf := rfl

@[simp] theorem poolTakesBack_decLen (s : State) (h : Nat) :
    (poolTakesBack s h).decLen = s.decLen := rfl

@[simp] theorem poolTakesBack_decEsc (s : State) (h : Nat) :
    (poolTakesBack s h).decEsc = s.decEsc := rfl

@[simp] theorem poolTakesBack_decDiscard (s : State) (h : Nat) :
    (poolTakesBack s h).decDiscard = s.decDiscard := rfl

@[simp] theorem poolTakesBack_decCrc (s : State) (h : Nat) :
    (poolTakesBack s h).decCrc = s.decCrc := rfl

@[simp] theorem poolTakesBack_decPend (s : State) (h : Nat) :
    (poolTakesBack s h).decPend = s.decPend := rfl

@[simp] theorem poolTakesBack_encN (s : State) (h : Nat) :
    (poolTakesBack s h).encN = s.encN := rfl

@[simp] theorem poolTakesBack_encIn (s : State) (h : Nat) :
    (poolTakesBack s h).encIn = s.encIn := rfl

@[simp] theorem poolTakesBack_encOvf (s : State) (h : Nat) :
    (poolTakesBack s h).encOvf = s.encOvf := rfl

@[simp] theorem poolTakesBack_fb (s : State) (h : Nat) :
    (poolTakesBack s h).fb = s.fb := rfl

@[simp] theorem poolTakesBack_ob (s : State) (h : Nat) :
    (poolTakesBack s h).ob = s.ob := rfl

@[simp] theorem poolTakesBack_fbOwner (s : State) (h : Nat) :
    (poolTakesBack s h).fbOwner = Assoc.removeRange s.fbOwner h 1 := rfl

@[simp] theorem poolTakesBack_obOwner (s : State) (h : Nat) :
    (poolTakesBack s h).obOwner = s.obOwner := rfl

@[simp] theorem poolTakesBack_wait (s : State) (h : Nat) :
    (poolTakesBack s h).wait = s.wait := rfl

@[simp] theorem poolTakesBack_inputs (s : State) (h : Nat) :
    (poolTakesBack s h).inputs = s.inputs := rfl

@[simp] theorem poolTakesBack_codes (s : State) (h : Nat) :
    (poolTakesBack s h).codes = s.codes := rfl

@[simp] theorem poolTakesBack_acquires (s : State) (h : Nat) :
    (poolTakesBack s h).acquires = s.acquires := rfl

@[simp] theorem poolTakesBack_outAllocs (s : State) (h : Nat) :
    (poolTakesBack s h).outAllocs = s.outAllocs := rfl

@[simp] theorem poolTakesBack_draws (s : State) (h : Nat) :
    (poolTakesBack s h).draws = s.draws := rfl

@[simp] theorem poolTakesBack_trace (s : State) (h : Nat) :
    (poolTakesBack s h).trace = s.trace := rfl

/-! ### handOver -/

@[simp] theorem handOver_cfg (s : State) (h : Nat) (a : ConsumerAnswer) :
    (handOver s h a).cfg = s.cfg := by cases a <;> rfl

@[simp] theorem handOver_fault (s : State) (h : Nat) (a : ConsumerAnswer) :
    (handOver s h a).fault = s.fault := by cases a <;> rfl

@[simp] theorem handOver_decBuf (s : State) (h : Nat) (a : ConsumerAnswer) :
    (handOver s h a).decBuf = s.decBuf := by cases a <;> rfl

@[simp] theorem handOver_decLen (s : State) (h : Nat) (a : ConsumerAnswer) :
    (handOver s h a).decLen = s.decLen := by cases a <;> rfl

@[simp] theorem handOver_decEsc (s : State) (h : Nat) (a : ConsumerAnswer) :
    (handOver s h a).decEsc = s.decEsc := by cases a <;> rfl

@[simp] theorem handOver_decDiscard (s : State) (h : Nat) (a : ConsumerAnswer) :
    (handOver s h a).decDiscard = s.decDiscard := by cases a <;> rfl

@[simp] theorem handOver_decCrc (s : State) (h : Nat) (a : ConsumerAnswer) :
    (handOver s h a).decCrc = s.decCrc := by cases a <;> rfl

@[simp] theorem handOver_decPend (s : State) (h : Nat) (a : ConsumerAnswer) :
    (handOver s h a).decPend = s.decPend := by cases a <;> rfl

@[simp] theorem handOver_encN (s : State) (h : Nat) (a : ConsumerAnswer) :
    (handOver s h a).encN = s.encN := by cases a <;> rfl

@[simp] theorem handOver_encIn (s : State) (h : Nat) (a : ConsumerAnswer) :
    (handOver s h a).encIn = s.encIn := by cases a <;> rfl

@[simp] theorem handOver_encOvf (s : State) (h : Nat) (a : ConsumerAnswer) :
    (handOver s h a).encOvf = s.encOvf := by cases a <;> rfl

@[simp] theorem handOver_fb (s : State) (h : Nat) (a : ConsumerAnswer) :
    (handOver s h a).fb = s.fb := by cases a <;> rfl

@[simp] theorem handOver_ob (s : State) (h : Nat) (a : ConsumerAnswer) :
    (handOver s h a).ob = s.ob := by cases a <;> rfl

@[simp] theorem handOver_obOwner (s : State) (h : Nat) (a : ConsumerAnswer) :
    (handOver s h a).obOwner = s.obOwner := by cases a <;> rfl

@[simp] theorem handOver_wait (s : State) (h : Nat) (a : ConsumerAnswer) :
    (handOver s h a).wait = s.wait := by cases a <;> rfl

@[simp] theorem handOver_inputs (s : State) (h : Nat) (a : ConsumerAnswer) :
    (handOver s h a).inputs = s.inputs := by cases a <;> rfl

@[simp] theorem handOver_codes (s : State) (h : Nat) (a : ConsumerAnswer) :
    (handOver s h a).codes = s.codes := by cases a <;> rfl

@[simp] theorem handOver_acquires (s : State) (h : Nat) (a : ConsumerAnswer) :
    (handOver s h a).acquires = s.acquires := by cases a <;> rfl

@[simp] theorem handOver_outAllocs (s : State) (h : Nat) (a : ConsumerAnswer) :
    (handOver s h a).outAllocs = s.outAllocs := by cases a <;> rfl

@[simp] theorem handOver_draws (s : State) (h : Nat) (a : ConsumerAnswer) :
    (handOver s h a).draws = s.draws := by cases a <;> rfl

@[simp] theorem handOver_trace (s : State) (h : Nat) (a : ConsumerAnswer) :
    (handOver s h a).trace = s.trace := by cases a <;> rfl

/-! ### setOutOwner -/

@[simp] theorem setOutOwner_cfg (s : State) (o : Nat) (w : OutOwner) :
    (setOutOwner s o w).cfg = s.cfg := rfl

@[simp] theorem setOutOwner_fault (s : State) (o : Nat) (w : OutOwner) :
    (setOutOwner s o w).fault = s.fault := rfl

@[simp] theorem setOutOwner_decBuf (s : State) (o : Nat) (w : OutOwner) :
    (setOutOwner s o w).decBuf = s.decBuf := rfl

@[simp] theorem setOutOwner_decLen (s : State) (o : Nat) (w : OutOwner) :
    (setOutOwner s o w).decLen = s.decLen := rfl

@[simp] theorem setOutOwner_decEsc (s : State) (o : Nat) (w : OutOwner) :
    (setOutOwner s o w).decEsc = s.decEsc := rfl

@[simp] theorem setOutOwner_decDiscard (s : State) (o : Nat) (w : OutOwner) :
    (setOutOwner s o w).decDiscard = s.decDiscard := rfl

@[simp] theorem setOutOwner_decCrc (s : State) (o : Nat) (w : OutOwner) :
    (setOutOwner s o w).decCrc = s.decCrc := rfl

@[simp] theorem setOutOwner_decPend (s : State) (o : Nat) (w : OutOwner) :
    (setOutOwner s o w).decPend = s.decPend := rfl

@[simp] theorem setOutOwner_encN (s : State) (o : Nat) (w : OutOwner) :
    (setOutOwner s o w).encN = s.encN := rfl

@[simp] theorem setOutOwner_encIn (s : State) (o : Nat) (w : OutOwner) :
    (setOutOwner s o w).encIn = s.encIn := rfl

@[simp] theorem setOutOwner_encOvf (s : State) (o : Nat) (w : OutOwner) :
    (setOutOwner s o w).encOvf = s.encOvf := rfl

@[simp] theorem setOutOwner_fb (s : State) (o : Nat) (w : OutOwner) :
    (setOutOwner s o w).fb = s.fb := rfl

@[simp] theorem setOutOwner_ob (s : State) (o : Nat) (w : OutOwner) :
    (setOutOwner s o w).ob = s.ob := rfl

@[simp] theorem setOutOwner_fbOwner (s : State) (o : Nat) (w : OutOwner) :
    (setOutOwner s o w).fbOwner = s.fbOwner := rfl

@[simp] theorem setOutOwner_obOwner (s : State) (o : Nat) (w : OutOwner) :
    (setOutOwner s o w).obOwner = Assoc.insert s.obOwner o w := rfl

@[simp] theorem setOutOwner_wait (s : State) (o : Nat) (w : OutOwner) :
    (setOutOwner s o w).wait = s.wait := rfl

@[simp] theorem setOutOwner_inputs (s : State) (o : Nat) (w : OutOwner) :
    (setOutOwner s o w).inputs = s.inputs := rfl

@[simp] theorem setOutOwner_codes (s : State) (o : Nat) (w : OutOwner) :
    (setOutOwner s o w).codes = s.codes := rfl

@[simp] theorem setOutOwner_acquires (s : State) (o : Nat) (w : OutOwner) :
    (setOutOwner s o w).acquires = s.acquires := rfl

@[simp] theorem setOutOwner_outAllocs (s : State) (o : Nat) (w : OutOwner) :
    (setOutOwner s o w).outAllocs = s.outAllocs := rfl

@[simp] theorem setOutOwner_draws (s : State) (o : Nat) (w : OutOwner) :
    (setOutOwner s o w).draws = s.draws := rfl

@[simp] theorem setOutOwner_trace (s : State) (o : Nat) (w : OutOwner) :
    (setOutOwner s o w).trace = s.trace := rfl

/-! ### setEsc -/

@[simp] theorem setEsc_cfg (s : State) (v : Bool) :
    (setEsc s v).cfg = s.cfg := rfl

@[simp] theorem setEsc_fault (s : State) (v : Bool) :
    (setEsc s v).fault = s.fault := rfl

@[simp] theorem setEsc_decBuf (s : State) (v : Bool) :
    (setEsc s v).decBuf = s.decBuf := rfl

@[simp] theorem setEsc_decLen (s : State) (v : Bool) :
    (setEsc s v).decLen = s.decLen := rfl

@[simp] theorem setEsc_decEsc (s : State) (v : Bool) :
    (setEsc s v).decEsc = v := rfl

@[simp] theorem setEsc_decDiscard (s : State) (v : Bool) :
    (setEsc s v).decDiscard = s.decDiscard := rfl

@[simp] theorem setEsc_decCrc (s : State) (v : Bool) :
    (setEsc s v).decCrc = s.decCrc := rfl

@[simp] theorem setEsc_decPend (s : State) (v : Bool) :
    (setEsc s v).decPend = s.decPend := rfl

@[simp] theorem setEsc_encN (s : State) (v : Bool) :
    (setEsc s v).encN = s.encN := rfl

@[simp] theorem setEsc_encIn (s : State) (v : Bool) :
    (setEsc s v).encIn = s.encIn := rfl

@[simp] theorem setEsc_encOvf (s : State) (v : Bool) :
    (setEsc s v).encOvf = s.encOvf := rfl

@[simp] theorem setEsc_fb (s : State) (v : Bool) :
    (setEsc s v).fb = s.fb := rfl

@[simp] theorem setEsc_ob (s : State) (v : Bool) :
    (setEsc s v).ob = s.ob := rfl

@[simp] theorem setEsc_fbOwner (s : State) (v : Bool) :
    (setEsc s v).fbOwner = s.fbOwner := rfl

@[simp] theorem setEsc_obOwner (s : State) (v : Bool) :
    (setEsc s v).obOwner = s.obOwner := rfl

@[simp] theorem setEsc_wait (s : State) (v : Bool) :
    (setEsc s v).wait = s.wait := rfl

@[simp] theorem setEsc_inputs (s : State) (v : Bool) :
    (setEsc s v).inputs = s.inputs := rfl

@[simp] theorem setEsc_codes (s : State) (v : Bool) :
    (setEsc s v).codes = s.codes := rfl

@[simp] theorem setEsc_acquires (s : State) (v : Bool) :
    (setEsc s v).acquires = s.acquires := rfl

@[simp] theorem setEsc_outAllocs (s : State) (v : Bool) :
    (setEsc s v).outAllocs = s.outAllocs := rfl

@[simp] theorem setEsc_draws (s : State) (v : Bool) :
    (setEsc s v).draws = s.draws := rfl

@[simp] theorem setEsc_trace (s : State) (v : Bool) :
    (setEsc s v).trace = s.trace := rfl

/-! ### setDiscard -/

@[simp] theorem setDiscard_cfg (s : State) (v : Bool) :
    (setDiscard s v).cfg = s.cfg := rfl

@[simp] theorem setDiscard_fault (s : State) (v : Bool) :
    (setDiscard s v).fault = s.fault := rfl

@[simp] theorem setDiscard_decBuf (s : State) (v : Bool) :
    (setDiscard s v).decBuf = s.decBuf := rfl

@[simp] theorem setDiscard_decLen (s : State) (v : Bool) :
    (setDiscard s v).decLen = s.decLen := rfl

@[simp] theorem setDiscard_decEsc (s : State) (v : Bool) :
    (setDiscard s v).decEsc = s.decEsc := rfl

@[simp] theorem setDiscard_decDiscard (s : State) (v : Bool) :
    (setDiscard s v).decDiscard = v := rfl

@[simp] theorem setDiscard_decCrc (s : State) (v : Bool) :
    (setDiscard s v).decCrc = s.decCrc := rfl

@[simp] theorem setDiscard_decPend (s : State) (v : Bool) :
    (setDiscard s v).decPend = s.decPend := rfl

@[simp] theorem setDiscard_encN (s : State) (v : Bool) :
    (setDiscard s v).encN = s.encN := rfl

@[simp] theorem setDiscard_encIn (s : State) (v : Bool) :
    (setDiscard s v).encIn = s.encIn := rfl

@[simp] theorem setDiscard_encOvf (s : State) (v : Bool) :
    (setDiscard s v).encOvf = s.encOvf := rfl

@[simp] theorem setDiscard_fb (s : State) (v : Bool) :
    (setDiscard s v).fb = s.fb := rfl

@[simp] theorem setDiscard_ob (s : State) (v : Bool) :
    (setDiscard s v).ob = s.ob := rfl

@[simp] theorem setDiscard_fbOwner (s : State) (v : Bool) :
    (setDiscard s v).fbOwner = s.fbOwner := rfl

@[simp] theorem setDiscard_obOwner (s : State) (v : Bool) :
    (setDiscard s v).obOwner = s.obOwner := rfl

@[simp] theorem setDiscard_wait (s : State) (v : Bool) :
    (setDiscard s v).wait = s.wait := rfl

@[simp] theorem setDiscard_inputs (s : State) (v : Bool) :
    (setDiscard s v).inputs = s.inputs := rfl

@[simp] theorem setDiscard_codes (s : State) (v : Bool) :
    (setDiscard s v).codes = s.codes := rfl

@[simp] theorem setDiscard_acquires (s : State) (v : Bool) :
    (setDiscard s v).acquires = s.acquires := rfl

@[simp] theorem setDiscard_outAllocs (s : State) (v : Bool) :
    (setDiscard s v).outAllocs = s.outAllocs := rfl

@[simp] theorem setDiscard_draws (s : State) (v : Bool) :
    (setDiscard s v).draws = s.draws := rfl

@[simp] theorem setDiscard_trace (s : State) (v : Bool) :
    (setDiscard s v).trace = s.trace := rfl

/-! ### setOvf -/

@[simp] theorem setOvf_cfg (s : State) (v : Bool) :
    (setOvf s v).cfg = s.cfg := rfl

@[simp] theorem setOvf_fault (s : State) (v : Bool) :
    (setOvf s v).fault = s.fault := rfl

@[simp] theorem setOvf_decBuf (s : State) (v : Bool) :
    (setOvf s v).decBuf = s.decBuf := rfl

@[simp] theorem setOvf_decLen (s : State) (v : Bool) :
    (setOvf s v).decLen = s.decLen := rfl

@[simp] theorem setOvf_decEsc (s : State) (v : Bool) :
    (setOvf s v).decEsc = s.decEsc := rfl

@[simp] theorem setOvf_decDiscard (s : State) (v : Bool) :
    (setOvf s v).decDiscard = s.decDiscard := rfl

@[simp] theorem setOvf_decCrc (s : State) (v : Bool) :
    (setOvf s v).decCrc = s.decCrc := rfl

@[simp] theorem setOvf_decPend (s : State) (v : Bool) :
    (setOvf s v).decPend = s.decPend := rfl

@[simp] theorem setOvf_encN (s : State) (v : Bool) :
    (setOvf s v).encN = s.encN := rfl

@[simp] theorem setOvf_encIn (s : State) (v : Bool) :
    (setOvf s v).encIn = s.encIn := rfl

@[simp] theorem setOvf_encOvf (s : State) (v : Bool) :
    (setOvf s v).encOvf = v := rfl

@[simp] theorem setOvf_fb (s : State) (v : Bool) :
    (setOvf s v).fb = s.fb := rfl

@[simp] theorem setOvf_ob (s : State) (v : Bool) :
    (setOvf s v).ob = s.ob := rfl

@[simp] theorem setOvf_fbOwner (s : State) (v : Bool) :
    (setOvf s v).fbOwner = s.fbOwner := rfl

@[simp] theorem setOvf_obOwner (s : State) (v : Bool) :
    (setOvf s v).obOwner = s.obOwner := rfl

@[simp] theorem setOvf_wait (s : State) (v : Bool) :
    (setOvf s v).wait = s.wait := rfl

@[simp] theorem setOvf_inputs (s : State) (v : Bool) :
    (setOvf s v).inputs = s.inputs := rfl

@[simp] theorem setOvf_codes (s : State) (v : Bool) :
    (setOvf s v).codes = s.codes := rfl

@[simp] theorem setOvf_acquires (s : State) (v : Bool) :
    (setOvf s v).acquires = s.acquires := rfl

@[simp] theorem setOvf_outAllocs (s : State) (v : Bool) :
    (setOvf s v).outAllocs = s.outAllocs := rfl

@[simp] theorem setOvf_draws (s : State) (v : Bool) :
    (setOvf s v).draws = s.draws := rfl

@[simp] theorem setOvf_trace (s : State) (v : Bool) :
    (setOvf s v).trace = s.trace := rfl

/-! ### clearStaging -/

@[simp] theorem clearStaging_cfg (s : State) :
    (clearStaging s).cfg = s.cfg := rfl

@[simp] theorem clearStaging_fault (s : State) :
    (clearStaging s).fault = s.fault := rfl

@[simp] theorem clearStaging_decBuf (s : State) :
    (clearStaging s).decBuf = s.decBuf := rfl

@[simp] theorem clearStaging_decLen (s : State) :
    (clearStaging s).decLen = s.decLen := rfl

@[simp] theorem clearStaging_decEsc (s : State) :
    (clearStaging s).decEsc = s.decEsc := rfl

@[simp] theorem clearStaging_decDiscard (s : State) :
    (clearStaging s).decDiscard = s.decDiscard := rfl

@[simp] theorem clearStaging_decCrc (s : State) :
    (clearStaging s).decCrc = s.decCrc := rfl

@[simp] theorem clearStaging_decPend (s : State) :
    (clearStaging s).decPend = s.decPend := rfl

@[simp] theorem clearStaging_encN (s : State) :
    (clearStaging s).encN = 0 := rfl

@[simp] theorem clearStaging_encIn (s : State) :
    (clearStaging s).encIn = s.encIn := rfl

@[simp] theorem clearStaging_encOvf (s : State) :
    (clearStaging s).encOvf = false := rfl

@[simp] theorem clearStaging_fb (s : State) :
    (clearStaging s).fb = s.fb := rfl

@[simp] theorem clearStaging_ob (s : State) :
    (clearStaging s).ob = s.ob := rfl

@[simp] theorem clearStaging_fbOwner (s : State) :
    (clearStaging s).fbOwner = s.fbOwner := rfl

@[simp] theorem clearStaging_obOwner (s : State) :
    (clearStaging s).obOwner = s.obOwner := rfl

@[simp] theorem clearStaging_wait (s : State) :
    (clearStaging s).wait = s.wait := rfl

@[simp] theorem clearStaging_inputs (s : State) :
    (clearStaging s).inputs = s.inputs := rfl

@[simp] theorem clearStaging_codes (s : State) :
    (clearStaging s).codes = s.codes := rfl

@[simp] theorem clearStaging_acquires (s : State) :
    (clearStaging s).acquires = s.acquires := rfl

@[simp] theorem clearStaging_outAllocs (s : State) :
    (clearStaging s).outAllocs = s.outAllocs := rfl

@[simp] theorem clearStaging_draws (s : State) :
    (clearStaging s).draws = s.draws := rfl

@[simp] theorem clearStaging_trace (s : State) :
    (clearStaging s).trace = s.trace := rfl

/-! ### outRelease -/

@[simp] theorem outRelease_cfg (s : State) (o : Nat) :
    (outRelease s o).cfg = s.cfg := rfl

@[simp] theorem outRelease_fault (s : State) (o : Nat) :
    (outRelease s o).fault = s.fault := rfl

@[simp] theorem outRelease_decBuf (s : State) (o : Nat) :
    (outRelease s o).decBuf = s.decBuf := rfl

@[simp] theorem outRelease_decLen (s : State) (o : Nat) :
    (outRelease s o).decLen = s.decLen := rfl

@[simp] theorem outRelease_decEsc (s : State) (o : Nat) :
    (outRelease s o).decEsc = s.decEsc := rfl

@[simp] theorem outRelease_decDiscard (s : State) (o : Nat) :
    (outRelease s o).decDiscard = s.decDiscard := rfl

@[simp] theorem outRelease_decCrc (s : State) (o : Nat) :
    (outRelease s o).decCrc = s.decCrc := rfl

@[simp] theorem outRelease_decPend (s : State) (o : Nat) :
    (outRelease s o).decPend = s.decPend := rfl

@[simp] theorem outRelease_encN (s : State) (o : Nat) :
    (outRelease s o).encN = s.encN := rfl

@[simp] theorem outRelease_encIn (s : State) (o : Nat) :
    (outRelease s o).encIn = s.encIn := rfl

@[simp] theorem outRelease_encOvf (s : State) (o : Nat) :
    (outRelease s o).encOvf = s.encOvf := rfl

@[simp] theorem outRelease_fb (s : State) (o : Nat) :
    (outRelease s o).fb = s.fb := rfl

@[simp] theorem outRelease_ob (s : State) (o : Nat) :
    (outRelease s o).ob = s.ob := rfl

@[simp] theorem outRelease_fbOwner (s : State) (o : Nat) :
    (outRelease s o).fbOwner = s.fbOwner := rfl

@[simp] theorem outRelease_obOwner (s : State) (o : Nat) :
    (outRelease s o).obOwner = Assoc.removeRange s.obOwner o 1 := rfl

@[simp] theorem outRelease_wait (s : State) (o : Nat) :
    (outRelease s o).wait = s.wait := rfl

@[simp] theorem outRelease_inputs (s : State) (o : Nat) :
    (outRelease s o).inputs = s.inputs := rfl

@[simp] theorem outRelease_codes (s : State) (o : Nat) :
    (outRelease s o).codes = s.codes := rfl

@[simp] theorem outRelease_acquires (s : State) (o : Nat) :
    (outRelease s o).acquires = s.acquires := rfl

@[simp] theorem outRelease_outAllocs (s : State) (o : Nat) :
    (outRelease s o).outAllocs = s.outAllocs := rfl

@[simp] theorem outRelease_draws (s : State) (o : Nat) :
    (outRelease s o).draws = s.draws := rfl

@[simp] theorem outRelease_trace (s : State) (o : Nat) :
    (outRelease s o).trace = .outRelease o :: s.trace := rfl

/-! ### powerOn -/

@[simp] theorem powerOn_cfg (s : State) :
    (powerOn s).cfg = s.cfg := rfl

@[simp] theorem powerOn_fault (s : State) :
    (powerOn s).fault = .none := rfl

@[simp] theorem powerOn_decBuf (s : State) :
    (powerOn s).decBuf = s.decBuf := rfl

@[simp] theorem powerOn_decLen (s : State) :
    (powerOn s).decLen = s.decLen := rfl

@[simp] theorem powerOn_decEsc (s : State) :
    (powerOn s).decEsc = s.decEsc := rfl

@[simp] theorem powerOn_decDiscard (s : State) :
    (powerOn s).decDiscard = s.decDiscard := rfl

@[simp] theorem powerOn_decCrc (s : State) :
    (powerOn s).decCrc = s.decCrc := rfl

@[simp] theorem powerOn_decPend (s : State) :
    (powerOn s).decPend = 0 := rfl

@[simp] theorem powerOn_encN (s : State) :
    (powerOn s).encN = 0 := rfl

@[simp] theorem powerOn_encIn (s : State) :
    (powerOn s).encIn = s.encIn := rfl

@[simp] theorem powerOn_encOvf (s : State) :
    (powerOn s).encOvf = false := rfl

@[simp] theorem powerOn_fb (s : State) :
    (powerOn s).fb = [] := rfl

@[simp] theorem powerOn_ob (s : State) :
    (powerOn s).ob = s.ob := rfl

@[simp] theorem powerOn_fbOwner (s : State) :
    (powerOn s).fbOwner = [] := rfl

@[simp] theorem powerOn_obOwner (s : State) :
    (powerOn s).obOwner = s.obOwner := rfl

@[simp] theorem powerOn_wait (s : State) :
    (powerOn s).wait = none := rfl

@[simp] theorem powerOn_inputs (s : State) :
    (powerOn s).inputs = s.inputs := rfl

@[simp] theorem powerOn_codes (s : State) :
    (powerOn s).codes = s.codes := rfl

@[simp] theorem powerOn_acquires (s : State) :
    (powerOn s).acquires = s.acquires := rfl

@[simp] theorem powerOn_outAllocs (s : State) :
    (powerOn s).outAllocs = s.outAllocs := rfl

@[simp] theorem powerOn_draws (s : State) :
    (powerOn s).draws = s.draws := rfl

@[simp] theorem powerOn_trace (s : State) :
    (powerOn s).trace = s.trace := rfl

/-! ### inputTaken -/

@[simp] theorem inputTaken_cfg (s : State) :
    (inputTaken s).cfg = s.cfg := rfl

@[simp] theorem inputTaken_fault (s : State) :
    (inputTaken s).fault = s.fault := rfl

@[simp] theorem inputTaken_decBuf (s : State) :
    (inputTaken s).decBuf = s.decBuf := rfl

@[simp] theorem inputTaken_decLen (s : State) :
    (inputTaken s).decLen = s.decLen := rfl

@[simp] theorem inputTaken_decEsc (s : State) :
    (inputTaken s).decEsc = s.decEsc := rfl

@[simp] theorem inputTaken_decDiscard (s : State) :
    (inputTaken s).decDiscard = s.decDiscard := rfl

@[simp] theorem inputTaken_decCrc (s : State) :
    (inputTaken s).decCrc = s.decCrc := rfl

@[simp] theorem inputTaken_decPend (s : State) :
    (inputTaken s).decPend = s.decPend := rfl

@[simp] theorem inputTaken_encN (s : State) :
    (inputTaken s).encN = s.encN := rfl

@[simp] theorem inputTaken_encIn (s : State) :
    (inputTaken s).encIn = s.encIn := rfl

@[simp] theorem inputTaken_encOvf (s : State) :
    (inputTaken s).encOvf = s.encOvf := rfl

@[simp] theorem inputTaken_fb (s : State) :
    (inputTaken s).fb = s.fb := rfl

@[simp] theorem inputTaken_ob (s : State) :
    (inputTaken s).ob = s.ob := rfl

@[simp] theorem inputTaken_fbOwner (s : State) :
    (inputTaken s).fbOwner = s.fbOwner := rfl

@[simp] theorem inputTaken_obOwner (s : State) :
    (inputTaken s).obOwner = s.obOwner := rfl

@[simp] theorem inputTaken_wait (s : State) :
    (inputTaken s).wait = s.wait := rfl

@[simp] theorem inputTaken_inputs (s : State) :
    (inputTaken s).inputs = s.inputs.tail := rfl

@[simp] theorem inputTaken_codes (s : State) :
    (inputTaken s).codes = s.codes := rfl

@[simp] theorem inputTaken_acquires (s : State) :
    (inputTaken s).acquires = s.acquires := rfl

@[simp] theorem inputTaken_outAllocs (s : State) :
    (inputTaken s).outAllocs = s.outAllocs := rfl

@[simp] theorem inputTaken_draws (s : State) :
    (inputTaken s).draws = s.draws := rfl

@[simp] theorem inputTaken_trace (s : State) :
    (inputTaken s).trace = s.trace := rfl

/-! ### consumerAnswered -/

@[simp] theorem consumerAnswered_cfg (s : State) :
    (consumerAnswered s).cfg = s.cfg := by unfold consumerAnswered; split <;> simp_all

@[simp] theorem consumerAnswered_fault (s : State) :
    (consumerAnswered s).fault = s.fault := by unfold consumerAnswered; split <;> simp_all

@[simp] theorem consumerAnswered_decBuf (s : State) :
    (consumerAnswered s).decBuf = s.decBuf := by unfold consumerAnswered; split <;> simp_all

@[simp] theorem consumerAnswered_decLen (s : State) :
    (consumerAnswered s).decLen = s.decLen := by unfold consumerAnswered; split <;> simp_all

@[simp] theorem consumerAnswered_decEsc (s : State) :
    (consumerAnswered s).decEsc = s.decEsc := by unfold consumerAnswered; split <;> simp_all

@[simp] theorem consumerAnswered_decDiscard (s : State) :
    (consumerAnswered s).decDiscard = s.decDiscard := by unfold consumerAnswered; split <;> simp_all

@[simp] theorem consumerAnswered_decCrc (s : State) :
    (consumerAnswered s).decCrc = s.decCrc := by unfold consumerAnswered; split <;> simp_all

@[simp] theorem consumerAnswered_decPend (s : State) :
    (consumerAnswered s).decPend = s.decPend := by unfold consumerAnswered; split <;> simp_all

@[simp] theorem consumerAnswered_encN (s : State) :
    (consumerAnswered s).encN = s.encN := by unfold consumerAnswered; split <;> simp_all

@[simp] theorem consumerAnswered_encIn (s : State) :
    (consumerAnswered s).encIn = s.encIn := by unfold consumerAnswered; split <;> simp_all

@[simp] theorem consumerAnswered_encOvf (s : State) :
    (consumerAnswered s).encOvf = s.encOvf := by unfold consumerAnswered; split <;> simp_all

@[simp] theorem consumerAnswered_fb (s : State) :
    (consumerAnswered s).fb = s.fb := by unfold consumerAnswered; split <;> simp_all

@[simp] theorem consumerAnswered_ob (s : State) :
    (consumerAnswered s).ob = s.ob := by unfold consumerAnswered; split <;> simp_all

@[simp] theorem consumerAnswered_fbOwner (s : State) :
    (consumerAnswered s).fbOwner = s.fbOwner := by unfold consumerAnswered; split <;> simp_all

@[simp] theorem consumerAnswered_obOwner (s : State) :
    (consumerAnswered s).obOwner = s.obOwner := by unfold consumerAnswered; split <;> simp_all

@[simp] theorem consumerAnswered_wait (s : State) :
    (consumerAnswered s).wait = s.wait := by unfold consumerAnswered; split <;> simp_all

@[simp] theorem consumerAnswered_inputs (s : State) :
    (consumerAnswered s).inputs = s.inputs := by unfold consumerAnswered; split <;> simp_all

@[simp] theorem consumerAnswered_codes (s : State) :
    (consumerAnswered s).codes = s.codes.tail := by unfold consumerAnswered; split <;> simp_all

@[simp] theorem consumerAnswered_acquires (s : State) :
    (consumerAnswered s).acquires = s.acquires := by unfold consumerAnswered; split <;> simp_all

@[simp] theorem consumerAnswered_outAllocs (s : State) :
    (consumerAnswered s).outAllocs = s.outAllocs := by unfold consumerAnswered; split <;> simp_all

@[simp] theorem consumerAnswered_trace (s : State) :
    (consumerAnswered s).trace = s.trace := by unfold consumerAnswered; split <;> simp_all

/-! ### poolAnswered -/

@[simp] theorem poolAnswered_cfg (s : State) :
    (poolAnswered s).cfg = s.cfg := by unfold poolAnswered; split <;> simp_all

@[simp] theorem poolAnswered_fault (s : State) :
    (poolAnswered s).fault = s.fault := by unfold poolAnswered; split <;> simp_all

@[simp] theorem poolAnswered_decBuf (s : State) :
    (poolAnswered s).decBuf = s.decBuf := by unfold poolAnswered; split <;> simp_all

@[simp] theorem poolAnswered_decLen (s : State) :
    (poolAnswered s).decLen = s.decLen := by unfold poolAnswered; split <;> simp_all

@[simp] theorem poolAnswered_decEsc (s : State) :
    (poolAnswered s).decEsc = s.decEsc := by unfold poolAnswered; split <;> simp_all

@[simp] theorem poolAnswered_decDiscard (s : State) :
    (poolAnswered s).decDiscard = s.decDiscard := by unfold poolAnswered; split <;> simp_all

@[simp] theorem poolAnswered_decCrc (s : State) :
    (poolAnswered s).decCrc = s.decCrc := by unfold poolAnswered; split <;> simp_all

@[simp] theorem poolAnswered_decPend (s : State) :
    (poolAnswered s).decPend = s.decPend := by unfold poolAnswered; split <;> simp_all

@[simp] theorem poolAnswered_encN (s : State) :
    (poolAnswered s).encN = s.encN := by unfold poolAnswered; split <;> simp_all

@[simp] theorem poolAnswered_encIn (s : State) :
    (poolAnswered s).encIn = s.encIn := by unfold poolAnswered; split <;> simp_all

@[simp] theorem poolAnswered_encOvf (s : State) :
    (poolAnswered s).encOvf = s.encOvf := by unfold poolAnswered; split <;> simp_all

@[simp] theorem poolAnswered_fb (s : State) :
    (poolAnswered s).fb = s.fb := by unfold poolAnswered; split <;> simp_all

@[simp] theorem poolAnswered_ob (s : State) :
    (poolAnswered s).ob = s.ob := by unfold poolAnswered; split <;> simp_all

@[simp] theorem poolAnswered_fbOwner (s : State) :
    (poolAnswered s).fbOwner = s.fbOwner := by unfold poolAnswered; split <;> simp_all

@[simp] theorem poolAnswered_obOwner (s : State) :
    (poolAnswered s).obOwner = s.obOwner := by unfold poolAnswered; split <;> simp_all

@[simp] theorem poolAnswered_wait (s : State) :
    (poolAnswered s).wait = s.wait := by unfold poolAnswered; split <;> simp_all

@[simp] theorem poolAnswered_inputs (s : State) :
    (poolAnswered s).inputs = s.inputs := by unfold poolAnswered; split <;> simp_all

@[simp] theorem poolAnswered_codes (s : State) :
    (poolAnswered s).codes = s.codes := by unfold poolAnswered; split <;> simp_all

@[simp] theorem poolAnswered_acquires (s : State) :
    (poolAnswered s).acquires = s.acquires.tail := by unfold poolAnswered; split <;> simp_all

@[simp] theorem poolAnswered_outAllocs (s : State) :
    (poolAnswered s).outAllocs = s.outAllocs := by unfold poolAnswered; split <;> simp_all

@[simp] theorem poolAnswered_trace (s : State) :
    (poolAnswered s).trace = s.trace := by unfold poolAnswered; split <;> simp_all

/-! ### allocatorAnswered -/

@[simp] theorem allocatorAnswered_cfg (s : State) :
    (allocatorAnswered s).cfg = s.cfg := by unfold allocatorAnswered; split <;> simp_all

@[simp] theorem allocatorAnswered_fault (s : State) :
    (allocatorAnswered s).fault = s.fault := by unfold allocatorAnswered; split <;> simp_all

@[simp] theorem allocatorAnswered_decBuf (s : State) :
    (allocatorAnswered s).decBuf = s.decBuf := by unfold allocatorAnswered; split <;> simp_all

@[simp] theorem allocatorAnswered_decLen (s : State) :
    (allocatorAnswered s).decLen = s.decLen := by unfold allocatorAnswered; split <;> simp_all

@[simp] theorem allocatorAnswered_decEsc (s : State) :
    (allocatorAnswered s).decEsc = s.decEsc := by unfold allocatorAnswered; split <;> simp_all

@[simp] theorem allocatorAnswered_decDiscard (s : State) :
    (allocatorAnswered s).decDiscard = s.decDiscard := by unfold allocatorAnswered; split <;> simp_all

@[simp] theorem allocatorAnswered_decCrc (s : State) :
    (allocatorAnswered s).decCrc = s.decCrc := by unfold allocatorAnswered; split <;> simp_all

@[simp] theorem allocatorAnswered_decPend (s : State) :
    (allocatorAnswered s).decPend = s.decPend := by unfold allocatorAnswered; split <;> simp_all

@[simp] theorem allocatorAnswered_encN (s : State) :
    (allocatorAnswered s).encN = s.encN := by unfold allocatorAnswered; split <;> simp_all

@[simp] theorem allocatorAnswered_encIn (s : State) :
    (allocatorAnswered s).encIn = s.encIn := by unfold allocatorAnswered; split <;> simp_all

@[simp] theorem allocatorAnswered_encOvf (s : State) :
    (allocatorAnswered s).encOvf = s.encOvf := by unfold allocatorAnswered; split <;> simp_all

@[simp] theorem allocatorAnswered_fb (s : State) :
    (allocatorAnswered s).fb = s.fb := by unfold allocatorAnswered; split <;> simp_all

@[simp] theorem allocatorAnswered_ob (s : State) :
    (allocatorAnswered s).ob = s.ob := by unfold allocatorAnswered; split <;> simp_all

@[simp] theorem allocatorAnswered_fbOwner (s : State) :
    (allocatorAnswered s).fbOwner = s.fbOwner := by unfold allocatorAnswered; split <;> simp_all

@[simp] theorem allocatorAnswered_obOwner (s : State) :
    (allocatorAnswered s).obOwner = s.obOwner := by unfold allocatorAnswered; split <;> simp_all

@[simp] theorem allocatorAnswered_wait (s : State) :
    (allocatorAnswered s).wait = s.wait := by unfold allocatorAnswered; split <;> simp_all

@[simp] theorem allocatorAnswered_inputs (s : State) :
    (allocatorAnswered s).inputs = s.inputs := by unfold allocatorAnswered; split <;> simp_all

@[simp] theorem allocatorAnswered_codes (s : State) :
    (allocatorAnswered s).codes = s.codes := by unfold allocatorAnswered; split <;> simp_all

@[simp] theorem allocatorAnswered_acquires (s : State) :
    (allocatorAnswered s).acquires = s.acquires := by unfold allocatorAnswered; split <;> simp_all

@[simp] theorem allocatorAnswered_outAllocs (s : State) :
    (allocatorAnswered s).outAllocs = s.outAllocs.tail := by unfold allocatorAnswered; split <;> simp_all

@[simp] theorem allocatorAnswered_trace (s : State) :
    (allocatorAnswered s).trace = s.trace := by unfold allocatorAnswered; split <;> simp_all

/-! ### deliver -/

@[simp] theorem deliver_cfg (s : State) (h n : Nat) :
    (deliver s h n).cfg = s.cfg := by
    unfold deliver; cases consumerAnswer s <;> simp

@[simp] theorem deliver_fault (s : State) (h n : Nat) :
    (deliver s h n).fault = s.fault := by
    unfold deliver; cases consumerAnswer s <;> simp

@[simp] theorem deliver_decBuf (s : State) (h n : Nat) :
    (deliver s h n).decBuf = s.decBuf := by
    unfold deliver; cases consumerAnswer s <;> simp

@[simp] theorem deliver_decLen (s : State) (h n : Nat) :
    (deliver s h n).decLen = s.decLen := by
    unfold deliver; cases consumerAnswer s <;> simp

@[simp] theorem deliver_decEsc (s : State) (h n : Nat) :
    (deliver s h n).decEsc = s.decEsc := by
    unfold deliver; cases consumerAnswer s <;> simp

@[simp] theorem deliver_decDiscard (s : State) (h n : Nat) :
    (deliver s h n).decDiscard = s.decDiscard := by
    unfold deliver; cases consumerAnswer s <;> simp

@[simp] theorem deliver_decCrc (s : State) (h n : Nat) :
    (deliver s h n).decCrc = s.decCrc := by
    unfold deliver; cases consumerAnswer s <;> simp

@[simp] theorem deliver_decPend (s : State) (h n : Nat) :
    (deliver s h n).decPend = s.decPend := by
    unfold deliver; cases consumerAnswer s <;> simp

@[simp] theorem deliver_encN (s : State) (h n : Nat) :
    (deliver s h n).encN = s.encN := by
    unfold deliver; cases consumerAnswer s <;> simp

@[simp] theorem deliver_encIn (s : State) (h n : Nat) :
    (deliver s h n).encIn = s.encIn := by
    unfold deliver; cases consumerAnswer s <;> simp

@[simp] theorem deliver_encOvf (s : State) (h n : Nat) :
    (deliver s h n).encOvf = s.encOvf := by
    unfold deliver; cases consumerAnswer s <;> simp

@[simp] theorem deliver_fb (s : State) (h n : Nat) :
    (deliver s h n).fb = s.fb := by
    unfold deliver; cases consumerAnswer s <;> simp

@[simp] theorem deliver_ob (s : State) (h n : Nat) :
    (deliver s h n).ob = s.ob := by
    unfold deliver; cases consumerAnswer s <;> simp

@[simp] theorem deliver_fbOwner (s : State) (h n : Nat) :
    (deliver s h n).fbOwner = s.fbOwner := by
    unfold deliver; cases consumerAnswer s <;> simp

@[simp] theorem deliver_obOwner (s : State) (h n : Nat) :
    (deliver s h n).obOwner = s.obOwner := by
    unfold deliver; cases consumerAnswer s <;> simp

@[simp] theorem deliver_wait (s : State) (h n : Nat) :
    (deliver s h n).wait = if consumerAnswer s = .silent then some .consumer else s.wait := by
    unfold deliver; cases consumerAnswer s <;> simp

@[simp] theorem deliver_inputs (s : State) (h n : Nat) :
    (deliver s h n).inputs = s.inputs := by
    unfold deliver; cases consumerAnswer s <;> simp

@[simp] theorem deliver_codes (s : State) (h n : Nat) :
    (deliver s h n).codes = s.codes.tail := by
    unfold deliver; cases consumerAnswer s <;> simp

@[simp] theorem deliver_acquires (s : State) (h n : Nat) :
    (deliver s h n).acquires = s.acquires := by
    unfold deliver; cases consumerAnswer s <;> simp

@[simp] theorem deliver_outAllocs (s : State) (h n : Nat) :
    (deliver s h n).outAllocs = s.outAllocs := by
    unfold deliver; cases consumerAnswer s <;> simp

@[simp] theorem deliver_draws (s : State) (h n : Nat) :
    (deliver s h n).draws = (consumerAnswered s).draws := by
    unfold deliver; cases consumerAnswer s <;> simp

@[simp] theorem deliver_trace (s : State) (h n : Nat) :
    (deliver s h n).trace = .deliver s.cfg.instId h n (seenAtDelivery s h n) (consumerAnswer s) :: s.trace := by
    unfold deliver; cases consumerAnswer s <;> simp

end Sys2Proof.Machine
end

