-- ==== Sys2Proof/Laws/Memory.lean ====
section
/-!
SUPPORT. Memory: a read after a write, the canonical form under every memory operation, and that
different bytes of different buffers have different addresses.
-/
namespace Sys2Proof.Machine

@[simp] theorem Memory.read_write_self (m : Memory) (a : Nat) (v : Byte) :
    (m.write a v).read a = some v :=
  Assoc.lookup_insert_self m a v

theorem Memory.read_write_ne (m : Memory) {a b : Nat} (v : Byte) (h : b ≠ a) :
    (m.write a v).read b = m.read b :=
  Assoc.lookup_insert_ne m v h

theorem Memory.read_forget_out (m : Memory) (lo n : Nat) {a : Nat} (h : a < lo ∨ lo + n ≤ a) :
    (m.forget lo n).read a = m.read a :=
  Assoc.lookup_removeRange_out m lo n h

theorem Memory.read_forget_in (m : Memory) (lo n : Nat) {a : Nat} (h : lo ≤ a) (h' : a < lo + n) :
    (m.forget lo n).read a = none :=
  Assoc.lookup_removeRange_in m lo n h h'

theorem Memory.write_wf {m : Memory} (hm : m.wf) (a : Nat) (v : Byte) : (m.write a v).wf :=
  Assoc.sorted_insert hm a v

theorem Memory.forget_wf {m : Memory} (hm : m.wf) (lo n : Nat) : (m.forget lo n).wf :=
  Assoc.sorted_removeRange hm lo n

theorem reset_memory_wf : State.reset.fb.wf ∧ State.reset.ob.wf := by
  simp [State.reset, Memory.wf, Assoc.Sorted]

/-- Bytes of buffers of one size at different places have different addresses. -/
theorem addr_injective {size h h' off off' : Nat} (ho : off < size) (ho' : off' < size)
    (heq : h * size + off = h' * size + off') : h = h' ∧ off = off' := by
  have hs : 0 < size := by omega
  have h1 : (size * h + off) / size = (size * h' + off') / size := by
    rw [Nat.mul_comm size h, Nat.mul_comm size h', heq]
  rw [Nat.mul_add_div hs, Nat.mul_add_div hs, Nat.div_eq_of_lt ho, Nat.div_eq_of_lt ho'] at h1
  have h2 : h = h' := by omega
  subst h2
  exact ⟨rfl, by omega⟩

/-- A written byte of a frame buffer reads back. -/
theorem fbRead_write_self (s : State) (h off : Nat) (v : Byte) (ho : off < s.cfg.bufSize) :
    fbRead { s with fb := s.fb.write (fbAddr s.cfg h off) v } h off = some v := by
  simp [fbRead, ho]

/-- Writing one byte of a frame buffer leaves every other byte of every frame buffer alone. -/
theorem fbRead_write_ne (s : State) {h off h' off' : Nat} (v : Byte) (ho : off < s.cfg.bufSize)
    (hne : h' ≠ h ∨ off' ≠ off) :
    fbRead { s with fb := s.fb.write (fbAddr s.cfg h off) v } h' off' = fbRead s h' off' := by
  simp only [fbRead]
  split
  · rename_i ho'
    refine Memory.read_write_ne _ _ fun heq => ?_
    have := addr_injective ho' ho heq
    omega
  · rfl

/-- What a frame buffer reads as depends on the memory and the configuration alone. -/
theorem fbRead_congr {s t : State} (hc : t.cfg = s.cfg) (hm : t.fb = s.fb) (h off : Nat) :
    fbRead t h off = fbRead s h off := by
  simp [fbRead, hc, hm]

/-- What an output buffer reads as depends on the memory and the configuration alone. -/
theorem obRead_congr {s t : State} (hc : t.cfg = s.cfg) (hm : t.ob = s.ob) (o off : Nat) :
    obRead t o off = obRead s o off := by
  simp [obRead, hc, hm]

theorem fbBytes_congr {s t : State} (hc : t.cfg = s.cfg) (hm : t.fb = s.fb) (h off n : Nat) :
    fbBytes t h off n = fbBytes s h off n := by
  simp [fbBytes, fbRead, hc, hm]

/-- Removing one key. -/
theorem Assoc.lookup_remove_one {α : Type} (m : List (Nat × α)) (a k : Nat) :
    Assoc.lookup (Assoc.removeRange m a 1) k = if k = a then none else Assoc.lookup m k := by
  split
  · subst_vars; exact Assoc.lookup_removeRange_in _ _ _ (by omega) (by omega)
  · exact Assoc.lookup_removeRange_out _ _ _ (by omega)

/-- A byte of one buffer lies outside the address range of every other. -/
theorem addr_outside {size h k off : Nat} (ho : off < size) (hk : k ≠ h) :
    k * size + off < h * size + 0 ∨ h * size + 0 + size ≤ k * size + off := by
  rcases Nat.lt_or_gt_of_ne hk with hlt | hgt
  · have := Nat.mul_le_mul_right size (Nat.succ_le_of_lt hlt)
    rw [Nat.succ_mul] at this
    omega
  · have := Nat.mul_le_mul_right size (Nat.succ_le_of_lt hgt)
    rw [Nat.succ_mul] at this
    omega

/-- A buffer fresh from the pool has no written byte; every other buffer reads as before. -/
theorem fbRead_forget (s : State) (h k off : Nat) :
    fbRead { s with fb := s.fb.forget (fbAddr s.cfg h 0) s.cfg.bufSize } k off =
      if k = h then none else fbRead s k off := by
  simp only [fbRead, fbAddr]
  by_cases ho : off < s.cfg.bufSize
  · simp only [if_pos ho]
    split
    · subst_vars
      exact Memory.read_forget_in _ _ _ (by omega) (by omega)
    · exact Memory.read_forget_out _ _ _ (addr_outside ho ‹_›)
  · simp [ho]

/-- A buffer fresh from the output allocator has no written byte; every other reads as before. -/
theorem obRead_forget (s : State) (o k off : Nat) :
    obRead { s with ob := s.ob.forget (obAddr s.cfg o 0) s.cfg.outCap } k off =
      if k = o then none else obRead s k off := by
  simp only [obRead, obAddr]
  by_cases ho : off < s.cfg.outCap
  · simp only [if_pos ho]
    split
    · subst_vars
      exact Memory.read_forget_in _ _ _ (by omega) (by omega)
    · exact Memory.read_forget_out _ _ _ (addr_outside ho ‹_›)
  · simp [ho]

end Sys2Proof.Machine
end

