-- ==== Sys2Proof/Laws/Ops.lean ====
section
/-!
SUPPORT. One lemma per shared operation that says everything it can do; later proofs cite these and do
not unfold the operations.
-/
namespace Sys2Proof.Machine

/-! ## Sequencing and dispatch -/

theorem andThen_next {r : Result} {k : State → Result} {t : State} (h : andThen r k = .next t) :
    ∃ s, r = .next s ∧ k s = .next t := by
  cases r with
  | next s => exact ⟨s, rfl, h⟩
  | fault e => simp [andThen] at h
  | refused e => simp [andThen] at h

@[simp] theorem andThen_of_next (s : State) (k : State → Result) : andThen (.next s) k = k s := rfl

/-- A ready instance runs the operation. -/
theorem runCommand_ready {s : State} (hs : Ready s) (k : State → Result) : runCommand s k = k s := by
  simp [runCommand, hs.1, hs.2]

/-- A faulted instance answers `FAULTED` and changes nothing. -/
theorem runCommand_faulted {s : State} (hw : s.wait = none) (hf : s.fault ≠ .none)
    (k : State → Result) : runCommand s k = .next (respond s (.faulted s.fault)) := by
  unfold runCommand
  rw [hw]
  cases h : s.fault with
  | none => exact absurd h hf
  | illegalCmd => rfl
  | allocFail => rfl

/-- A hung instance takes no command. -/
theorem runCommand_hung {s : State} (hw : s.wait ≠ none) (k : State → Result) :
    runCommand s k = .refused .overlappingCommand := by
  unfold runCommand
  cases h : s.wait with
  | none => exact absurd h hw
  | some w => rfl

/-- If a command answers a next state, the instance was ready and the operation answered it, or the
instance was faulted and only responded. -/
theorem runCommand_cases {s t : State} {k : State → Result} (h : runCommand s k = .next t) :
    (Ready s ∧ k s = .next t) ∨
      (s.wait = none ∧ s.fault ≠ .none ∧ t = respond s (.faulted s.fault)) := by
  by_cases hw : s.wait = none
  · by_cases hf : s.fault = .none
    · exact .inl ⟨⟨hw, hf⟩, by rwa [runCommand_ready ⟨hw, hf⟩] at h⟩
    · rw [runCommand_faulted hw hf] at h
      exact .inr ⟨hw, hf, by injection h with h; exact h.symm⟩
  · rw [runCommand_hung hw] at h
    simp at h

/-! ## Buffer writes and the reset procedure -/

theorem bufWrite_of_lt (s : State) (h : Nat) {off : Nat} (v : Byte) (ho : off < s.cfg.bufSize) :
    bufWrite s h off v = .next { s with fb := s.fb.write (fbAddr s.cfg h off) v } := by
  simp [bufWrite, ho]

theorem bufWrite_cases {s t : State} {h off : Nat} {v : Byte} (hw : bufWrite s h off v = .next t) :
    off < s.cfg.bufSize ∧ t = { s with fb := s.fb.write (fbAddr s.cfg h off) v } := by
  unfold bufWrite at hw
  split at hw
  · exact ⟨‹_›, by injection hw with hw; exact hw.symm⟩
  · simp at hw

/-- The state `DecReset()` leaves (41_decoder.md R141). -/
def afterDecReset (s : State) : State :=
  { s with decEsc := false, decDiscard := false, decCrc := fcsInit, decLen := 0,
           fb := s.fb.write (fbAddr s.cfg s.decBuf tagOffset) s.cfg.tagInit }

theorem decReset_of_lt {s : State} (h : tagOffset < s.cfg.bufSize) :
    decReset s = .next (afterDecReset s) :=
  bufWrite_of_lt _ _ _ h

theorem decReset_cases {s t : State} (h : decReset s = .next t) :
    tagOffset < s.cfg.bufSize ∧ t = afterDecReset s :=
  bufWrite_cases h

theorem resetAndAck_of_lt {s : State} (h : tagOffset < s.cfg.bufSize) :
    resetAndAck s = .next (respond (afterDecReset s) .ack) := by
  simp [resetAndAck, decReset_of_lt h, acknowledge]

theorem resetAndAck_cases {s t : State} (h : resetAndAck s = .next t) :
    tagOffset < s.cfg.bufSize ∧ t = respond (afterDecReset s) .ack := by
  obtain ⟨u, hu, hk⟩ := andThen_next h
  obtain ⟨ho, rfl⟩ := decReset_cases hu
  exact ⟨ho, by simpa [acknowledge] using hk.symm⟩

/-! ## The allocators -/

/-- The state after a granted `Acquire()`. -/
def afterAcquire (s : State) (h : Nat) : State :=
  { setFrameOwner (emit (poolAnswered s) (.acquire (.ok h))) h .dec with
    fb := s.fb.forget (fbAddr s.cfg h 0) s.cfg.bufSize }

/-- `Acquire()`, by the pool's answer. -/
theorem acquire_eq (s : State) :
    acquire s =
      match poolAnswer s with
      | .ok h => if poolMayGive s h then .granted h (afterAcquire s h) else .unlawful h
      | .fail => .failed (emit (poolAnswered s) (.acquire .fail))
      | .silent =>
        .hung { emit (poolAnswered s) (.acquire .silent) with wait := some .pool } := by
  unfold acquire afterAcquire
  cases poolAnswer s <;> simp

/-- The state after a granted `OutAlloc()`. -/
def afterOutAlloc (s : State) (o : Nat) : State :=
  { setOutOwner (emit (allocatorAnswered s) (.outAlloc (.ok o))) o .enc with
    ob := s.ob.forget (obAddr s.cfg o 0) s.cfg.outCap }

/-- `OutAlloc()`, by the allocator's answer. -/
theorem outAlloc_eq (s : State) :
    outAlloc s =
      match allocatorAnswer s with
      | .ok o => if allocatorMayGive s o then .granted o (afterOutAlloc s o) else .unlawful o
      | .fail => .failed (emit (allocatorAnswered s) (.outAlloc .fail))
      | .silent =>
        .hung { emit (allocatorAnswered s) (.outAlloc .silent) with wait := some .outAllocator } := by
  unfold outAlloc afterOutAlloc
  cases allocatorAnswer s <;> simp

/-- A free draw is lawful: a handle the allocator may give, FAIL, or no answer. -/
theorem lawfulDraw_ok {a : AllocAnswer} {f : Nat → Bool} {h : Nat} (hd : lawfulDraw a f = .ok h) :
    f h = true := by
  cases a with
  | ok k =>
    unfold lawfulDraw at hd
    by_cases hk : f k = true
    · simp [hk] at hd; exact hd ▸ hk
    · simp [hk] at hd
  | fail => simp [lawfulDraw] at hd
  | silent => simp [lawfulDraw] at hd

theorem poolMayGive_iff (s : State) (h : Nat) :
    poolMayGive s h = true ↔ h < 2 ^ s.cfg.bufIdW ∧ frameOwner s h = none := by
  simp [poolMayGive]

theorem allocatorMayGive_iff (s : State) (o : Nat) :
    allocatorMayGive s o = true ↔ o < 2 ^ s.cfg.outIdW ∧ outOwner s o = none := by
  simp [allocatorMayGive]

/-! ## Ownership -/

@[simp] theorem frameOwner_set_self (s : State) (h : Nat) (w : FrameOwner) :
    frameOwner (setFrameOwner s h w) h = some w :=
  Assoc.lookup_insert_self _ _ _

theorem frameOwner_set_ne (s : State) {h k : Nat} (w : FrameOwner) (hk : k ≠ h) :
    frameOwner (setFrameOwner s h w) k = frameOwner s k :=
  Assoc.lookup_insert_ne _ _ hk

theorem frameOwner_poolTakesBack (s : State) (h k : Nat) :
    frameOwner (poolTakesBack s h) k = if k = h then none else frameOwner s k :=
  Assoc.lookup_remove_one _ h k

/-- A hand-over keeps the ownership map canonical. -/
theorem handOver_sorted {s : State} (hm : Assoc.Sorted s.fbOwner) (h : Nat) (a : ConsumerAnswer) :
    Assoc.Sorted (handOver s h a).fbOwner := by
  have hi := Assoc.sorted_insert hm h FrameOwner.consumer
  cases a with
  | code c => exact hi
  | silent => exact hi
  | acceptAndRelease => exact Assoc.sorted_removeRange hi _ _

/-- A hand-over changes the owner of its buffer alone. -/
theorem frameOwner_handOver (s : State) (h k : Nat) (a : ConsumerAnswer) :
    frameOwner (handOver s h a) k = if k = h then acceptedOwner a else frameOwner s k := by
  have hs : frameOwner (setFrameOwner s h .consumer) k =
      if k = h then some .consumer else frameOwner s k := by
    split
    · subst_vars; exact frameOwner_set_self _ _ _
    · exact frameOwner_set_ne _ _ ‹_›
  cases a with
  | code c => exact hs
  | silent => exact hs
  | acceptAndRelease =>
    refine (frameOwner_poolTakesBack _ h k).trans ?_
    split
    · rfl
    · exact hs.trans (if_neg ‹_›)

@[simp] theorem outOwner_set_self (s : State) (o : Nat) (w : OutOwner) :
    outOwner (setOutOwner s o w) o = some w :=
  Assoc.lookup_insert_self _ _ _

theorem outOwner_set_ne (s : State) {o k : Nat} (w : OutOwner) (hk : k ≠ o) :
    outOwner (setOutOwner s o w) k = outOwner s k :=
  Assoc.lookup_insert_ne _ _ hk

theorem frameOwner_congr {s t : State} (h : t.fbOwner = s.fbOwner) (k : Nat) :
    frameOwner t k = frameOwner s k := by
  simp [frameOwner, h]

theorem outOwner_congr {s t : State} (h : t.obOwner = s.obOwner) (k : Nat) :
    outOwner t k = outOwner s k := by
  simp [outOwner, h]

/-! ## Emitting -/

theorem emitBytes_nil (p : Params) (o : Nat) (out : Output) : emitBytes p o out [] = out := rfl

theorem emitBytes_cons (p : Params) (o : Nat) (out : Output) (v : Byte) (vs : List Byte) :
    emitBytes p o out (v :: vs) = emitBytes p o (emitByte p o out v) vs := rfl

/-- Nothing is emitted once the buffer was found full. -/
theorem emitBytes_full (p : Params) (o : Nat) (out : Output) (vs : List Byte)
    (h : out.full = true) : emitBytes p o out vs = out := by
  induction vs with
  | nil => rfl
  | cons v vs ih => rw [emitBytes_cons]; simp [emitByte, h, ih]

/-- Whether the buffer overflows depends on the lengths alone (42_encoder.md R201). -/
theorem emitBytes_full_iff (p : Params) (o : Nat) (vs : List Byte) :
    ∀ out : Output, out.full = false → out.k ≤ p.outCap →
      ((emitBytes p o out vs).full = true ↔ p.outCap < out.k + vs.length) := by
  induction vs with
  | nil => intro out hf hk; simp [emitBytes_nil, hf]; omega
  | cons v vs ih =>
    intro out hf hk
    rw [emitBytes_cons]
    by_cases hc : out.k = p.outCap
    · rw [emitBytes_full] <;> simp [emitByte, hf, hc]
    · have := ih (emitByte p o out v) (by simp [emitByte, hf, hc]) (by simp [emitByte, hf, hc]; omega)
      rw [this]
      simp [emitByte, hf, hc]
      omega

/-- The cursor after emits that fit. -/
theorem emitBytes_k (p : Params) (o : Nat) (vs : List Byte) :
    ∀ out : Output, out.full = false → out.k + vs.length ≤ p.outCap →
      (emitBytes p o out vs).k = out.k + vs.length := by
  induction vs with
  | nil => intro out _ _; rfl
  | cons v vs ih =>
    intro out hf hk
    simp only [List.length_cons] at hk
    have hc : out.k ≠ p.outCap := by omega
    rw [emitBytes_cons, ih _ (by simp [emitByte, hf, hc]) (by simp [emitByte, hf, hc]; omega)]
    simp [emitByte, hf, hc]
    omega

/-- Emitting writes only from the cursor on, no more bytes than it is given, and never past the end of
the buffer (42_encoder.md R201). -/
theorem emitBytes_read_out (p : Params) (o : Nat) (vs : List Byte) :
    ∀ out : Output, out.k ≤ p.outCap → ∀ a : Nat,
      (a < obAddr p o out.k ∨ obAddr p o (out.k + vs.length) ≤ a ∨ obAddr p o p.outCap ≤ a) →
      (emitBytes p o out vs).mem.read a = out.mem.read a := by
  induction vs with
  | nil => intro out _ a _; rfl
  | cons v vs ih =>
    intro out hk a ha
    by_cases hf : out.full = true
    · rw [emitBytes_full _ _ _ _ hf]
    by_cases hc : out.k = p.outCap
    · rw [emitBytes_cons, emitBytes_full] <;> simp [emitByte, hf, hc]
    · rw [emitBytes_cons]
      have hout : emitByte p o out v =
          { out with mem := out.mem.write (obAddr p o out.k) v, k := out.k + 1 } := by
        simp [emitByte, hf, hc]
      simp only [obAddr, List.length_cons] at ha
      rw [hout, ih _ (by simp; omega) a (by simp only [obAddr]; omega)]
      exact Memory.read_write_ne _ _ (by simp only [obAddr]; omega)

/-- The bytes emitted stand in the buffer in order (42_encoder.md R67, R194). -/
theorem emitBytes_read (p : Params) (o : Nat) (vs : List Byte) :
    ∀ out : Output, out.full = false → out.k + vs.length ≤ p.outCap → ∀ i : Nat, i < vs.length →
      (emitBytes p o out vs).mem.read (obAddr p o (out.k + i)) = vs[i]? := by
  induction vs with
  | nil => intro out _ _ i hi; simp at hi
  | cons v vs ih =>
    intro out hf hk i hi
    simp only [List.length_cons] at hk hi
    have hc : out.k ≠ p.outCap := by omega
    have hout : emitByte p o out v =
        { out with mem := out.mem.write (obAddr p o out.k) v, k := out.k + 1 } := by
      simp [emitByte, hf, hc]
    rw [emitBytes_cons, hout]
    cases i with
    | zero =>
      rw [emitBytes_read_out _ _ _ _ (by simp; omega) _ (by simp only [obAddr]; omega)]
      simp
    | succ i =>
      have := ih { out with mem := out.mem.write (obAddr p o out.k) v, k := out.k + 1 } hf
        (by simp; omega) i (by omega)
      rw [show out.k + (i + 1) = out.k + 1 + i by omega]
      simpa using this

/-- Emitting keeps the canonical form of the output memory. -/
theorem emitBytes_wf (p : Params) (o : Nat) (vs : List Byte) :
    ∀ out : Output, out.mem.wf → (emitBytes p o out vs).mem.wf := by
  induction vs with
  | nil => intro out h; exact h
  | cons v vs ih =>
    intro out h
    rw [emitBytes_cons]
    apply ih
    unfold emitByte
    split
    · exact h
    · split
      · exact h
      · exact Memory.write_wf h _ _

end Sys2Proof.Machine
end

