-- ==== Sys2Proof/Laws/Exec.lean ====
section
/-!
SUPPORT. What each command does on a ready instance, and the branches of `DEC_BYTE` and `ENC_FRAME`, one
lemma each; and, for every instruction, all the ways it can answer a next state.
-/
namespace Sys2Proof.Machine

/-! ## On a ready instance -/

theorem exec_decReset {s : State} (hs : Ready s) : exec .decReset s = resetAndAck s := by
  unfold exec execDecReset
  exact runCommand_ready hs _

theorem exec_decByte {s : State} (hs : Ready s) (b : Byte) :
    exec (.decByte b) s = consumeByte s b := by
  unfold exec execDecByte
  exact runCommand_ready hs _

theorem exec_decEnd {s : State} (hs : Ready s) :
    exec .decEnd s = .next (respond { s with decPend := 0 } (.status s.decPend)) := by
  unfold exec execDecEnd
  exact runCommand_ready hs _

theorem exec_encClear {s : State} (hs : Ready s) :
    exec .encClear s = acknowledge (clearStaging s) := by
  unfold exec execEncClear
  exact runCommand_ready hs _

theorem exec_encLoad {s : State} (hs : Ready s) (b : Byte) :
    exec (.encLoad b) s =
      if s.encN < s.cfg.encInMax then
        acknowledge { s with encIn := s.encIn.set s.encN b, encN := s.encN + 1 }
      else acknowledge (setOvf s true) := by
  unfold exec execEncLoad
  exact runCommand_ready hs _

theorem exec_encFrame {s : State} (hs : Ready s) :
    exec .encFrame s = encodeFrame (clearStaging s) s.encOvf s.encN (stagedFrame s) := by
  unfold exec execEncFrame
  exact runCommand_ready hs _

/-! ## On an instance that is not ready -/

theorem exec_faulted {s : State} (hw : s.wait = none) (hf : s.fault ≠ .none) (i : Instr) :
    exec i s = .next (respond s (.faulted s.fault)) := by
  cases i <;> unfold exec <;> exact runCommand_faulted hw hf _

theorem exec_hung {s : State} (hw : s.wait ≠ none) (i : Instr) :
    exec i s = .refused .overlappingCommand := by
  cases i <;> unfold exec <;> exact runCommand_hung hw _

/-- A next state comes from a ready instance, or is a faulted instance's response. -/
theorem exec_next {i : Instr} {s t : State} (h : exec i s = .next t) :
    Ready s ∨ (s.wait = none ∧ s.fault ≠ .none ∧ t = respond s (.faulted s.fault)) := by
  by_cases hw : s.wait = none
  · by_cases hf : s.fault = .none
    · exact .inl ⟨hw, hf⟩
    · rw [exec_faulted hw hf] at h
      exact .inr ⟨hw, hf, by injection h with h; exact h.symm⟩
  · rw [exec_hung hw] at h
    simp at h

/-! ## The branches of DEC_BYTE -/

theorem frameOK_iff (s : State) : frameOK s = true ↔ WellFormedFrame s := by
  simp only [frameOK, Bool.and_eq_true, Bool.not_eq_true', decide_eq_true_eq, beq_iff_eq, and_assoc]
  rfl

theorem consumeByte_flag_bad {s : State} (hw : ¬ WellFormedFrame s) :
    consumeByte s flag = resetAndAck s := by
  rw [consumeByte, if_pos rfl, flagByte, if_neg (by rwa [frameOK_iff])]

theorem consumeByte_flag_good {s : State} (hw : WellFormedFrame s) :
    consumeByte s flag = deliverFrame s := by
  rw [consumeByte, if_pos rfl, flagByte, if_pos (by rwa [frameOK_iff])]

theorem consumeByte_discard {s : State} {b : Byte} (hb : b ≠ flag) (hd : s.decDiscard = true) :
    consumeByte s b = acknowledge s := by
  rw [consumeByte, if_neg hb, if_pos hd]

theorem consumeByte_escaped {s : State} {b : Byte} (hb : b ≠ flag) (hd : s.decDiscard = false)
    (he : s.decEsc = true) : consumeByte s b = storeByte (setEsc s false) (masked b) := by
  rw [consumeByte, if_neg hb, if_neg (by simp [hd]), if_pos he]

theorem consumeByte_marker {s : State} (hd : s.decDiscard = false) (he : s.decEsc = false) :
    consumeByte s escByte = acknowledge (setEsc s true) := by
  rw [consumeByte, if_neg (by decide), if_neg (by simp [hd]), if_neg (by simp [he]), if_pos rfl]

theorem consumeByte_data {s : State} {b : Byte} (hb : b ≠ flag) (hd : s.decDiscard = false)
    (he : s.decEsc = false) (hm : b ≠ escByte) : consumeByte s b = storeByte s b := by
  rw [consumeByte, if_neg hb, if_neg (by simp [hd]), if_neg (by simp [he]), if_neg hm]

theorem storeByte_full {s : State} (b : Byte) (h : s.decLen = s.cfg.cap) :
    storeByte s b = acknowledge (setDiscard s true) := by
  rw [storeByte, if_pos h]

/-- The state after step 6 (41_decoder.md R153). -/
def afterAppend (s : State) (b : Byte) : State :=
  { s with fb := s.fb.write (fbAddr s.cfg s.decBuf (hdrRes + s.decLen)) b,
           decLen := s.decLen + 1, decCrc := crc16Update s.decCrc b }

theorem storeByte_room {s : State} (b : Byte) (h : s.decLen < s.cfg.cap) :
    storeByte s b = acknowledge (afterAppend s b) := by
  have hlt : hdrRes + s.decLen < s.cfg.bufSize := by
    simp only [Params.cap, hdrRes] at *; omega
  rw [storeByte, if_neg (by omega), appendByte, bufWrite_of_lt _ _ _ hlt]
  rfl

/-- The ways the storing of a byte can answer a next state. -/
theorem storeByte_cases {s t : State} {b : Byte} (h : storeByte s b = .next t) :
    (s.decLen = s.cfg.cap ∧ t = respond (setDiscard s true) .ack) ∨
    (s.decLen ≠ s.cfg.cap ∧ hdrRes + s.decLen < s.cfg.bufSize ∧
      t = respond (afterAppend s b) .ack) := by
  unfold storeByte at h
  split at h
  · exact .inl ⟨‹_›, by simpa [acknowledge] using h.symm⟩
  · obtain ⟨u, hu, hk⟩ := andThen_next h
    obtain ⟨ho, rfl⟩ := bufWrite_cases hu
    exact .inr ⟨‹_›, ho, by simpa [acknowledge, afterAppend] using hk.symm⟩

/-- Who owns what when the pool is asked: only the accepted buffer has changed hands. -/
theorem frameOwner_askingPool (s : State) (k : Nat) :
    frameOwner (askingPool s) k =
      if k = s.decBuf then acceptedOwner (consumerAnswer s) else frameOwner s k := by
  rw [askingPool, frameOwner_handOver, frameOwner_congr (deliver_fbOwner s _ _)]

/-- The decoder does not own the accepted buffer any more. -/
theorem acceptedOwner_ne_dec (a : ConsumerAnswer) : acceptedOwner a ≠ some .dec := by
  cases a <;> simp [acceptedOwner]

/-- The state after an accepted delivery that gets a new buffer `h`, before the reset procedure. -/
def afterAccept (s : State) (h : Nat) : State :=
  { afterAcquire (askingPool s) h with decBuf := h }

theorem answeredCode_none {a : ConsumerAnswer} (h : answeredCode a = none) : a = .silent := by
  cases a <;> simp [answeredCode] at h ⊢

/-- A nonzero code rejects the delivery (41_decoder.md R147). -/
theorem answeredCode_nonzero {a : ConsumerAnswer} {c : Code} (h : answeredCode a = some c)
    (hz : c ≠ 0) : a = .code c := by
  cases a with
  | code d => simpa [answeredCode] using h
  | acceptAndRelease => simp [answeredCode] at h; exact absurd h.symm hz
  | silent => simp [answeredCode] at h

theorem answeredCode_ne_silent {a : ConsumerAnswer} {c : Code} (h : answeredCode a = some c) :
    a ≠ .silent := by
  rintro rfl; simp [answeredCode] at h

/-- The ways a delivery can answer a next state (41_decoder.md R145 to R147). -/
theorem deliverFrame_cases {s t : State} (h : deliverFrame s = .next t) :
    (∃ k, answeredCode (consumerAnswer s) = some 0 ∧ poolAnswer (askingPool s) = .ok k ∧
      poolMayGive (askingPool s) k = true ∧ tagOffset < s.cfg.bufSize ∧
      t = respond (afterDecReset (afterAccept s k)) .ack) ∨
    (answeredCode (consumerAnswer s) = some 0 ∧ poolAnswer (askingPool s) = .fail ∧
      t = raiseFault (emit (poolAnswered (askingPool s)) (.acquire .fail)) .allocFail) ∨
    (answeredCode (consumerAnswer s) = some 0 ∧ poolAnswer (askingPool s) = .silent ∧
      t = { emit (poolAnswered (askingPool s)) (.acquire .silent) with wait := some .pool }) ∨
    (∃ c, consumerAnswer s = .code c ∧ c ≠ 0 ∧ tagOffset < s.cfg.bufSize ∧
      t = respond (afterDecReset { deliver s s.decBuf (s.decLen - 2) with
        decPend := if s.decPend = 0 then c else s.decPend }) .ack) ∨
    (consumerAnswer s = .silent ∧ t = deliver s s.decBuf (s.decLen - 2)) := by
  unfold deliverFrame at h
  cases hc : answeredCode (consumerAnswer s) with
  | none =>
    simp only [hc] at h
    injection h with h
    exact .inr (.inr (.inr (.inr ⟨answeredCode_none hc, h.symm⟩)))
  | some c =>
    simp only [hc] at h
    split at h
    · subst_vars
      unfold acceptedDelivery at h
      have hask : handOver (deliver s s.decBuf (s.decLen - fcsLen))
          (deliver s s.decBuf (s.decLen - fcsLen)).decBuf (consumerAnswer s) = askingPool s := by
        rw [deliver_decBuf]; rfl
      rw [hask, acquire_eq] at h
      cases hp : poolAnswer (askingPool s) with
      | ok k =>
        simp only [hp] at h
        by_cases hg : poolMayGive (askingPool s) k = true
        · simp only [hg, if_true] at h
          obtain ⟨ho, rfl⟩ := resetAndAck_cases h
          refine .inl ⟨k, rfl, rfl, hg, ?_, rfl⟩
          simpa [afterAcquire, askingPool] using ho
        · simp only [hg] at h
          simp at h
      | fail =>
        simp only [hp] at h
        injection h with h
        exact .inr (.inl ⟨rfl, rfl, h.symm⟩)
      | silent =>
        simp only [hp] at h
        injection h with h
        exact .inr (.inr (.inl ⟨rfl, rfl, h.symm⟩))
    · rename_i hz
      unfold rejectedDelivery at h
      obtain ⟨ho, rfl⟩ := resetAndAck_cases h
      refine .inr (.inr (.inr (.inl ⟨c, answeredCode_nonzero hc hz, hz, ?_, ?_⟩)))
      · split at ho <;> simpa using ho
      · rw [deliver_decPend]
        split
        · rfl
        · congr 2
          exact (deliver_decPend s s.decBuf (s.decLen - 2)) ▸ rfl

/-- The ways `DEC_BYTE` on a ready instance can answer a next state, in the order of its steps
(41_decoder.md R143). -/
theorem consumeByte_cases {s t : State} {b : Byte} (h : consumeByte s b = .next t) :
    (b = flag ∧ ¬ WellFormedFrame s ∧ tagOffset < s.cfg.bufSize ∧
      t = respond (afterDecReset s) .ack) ∨
    (b = flag ∧ WellFormedFrame s ∧ deliverFrame s = .next t) ∨
    (b ≠ flag ∧ s.decDiscard = true ∧ t = respond s .ack) ∨
    (b ≠ flag ∧ s.decDiscard = false ∧ s.decEsc = true ∧
      storeByte (setEsc s false) (masked b) = .next t) ∨
    (b = escByte ∧ s.decDiscard = false ∧ s.decEsc = false ∧ t = respond (setEsc s true) .ack) ∨
    (b ≠ flag ∧ b ≠ escByte ∧ s.decDiscard = false ∧ s.decEsc = false ∧
      storeByte s b = .next t) := by
  by_cases hb : b = flag
  · subst hb
    by_cases hw : WellFormedFrame s
    · rw [consumeByte_flag_good hw] at h
      exact .inr (.inl ⟨rfl, hw, h⟩)
    · rw [consumeByte_flag_bad hw] at h
      exact .inl ⟨rfl, hw, resetAndAck_cases h⟩
  · cases hd : s.decDiscard with
    | true =>
      rw [consumeByte_discard hb hd] at h
      exact .inr (.inr (.inl ⟨hb, rfl, by simpa [acknowledge] using h.symm⟩))
    | false =>
      cases he : s.decEsc with
      | true =>
        rw [consumeByte_escaped hb hd he] at h
        exact .inr (.inr (.inr (.inl ⟨hb, rfl, rfl, h⟩)))
      | false =>
        by_cases hm : b = escByte
        · subst hm
          rw [consumeByte_marker hd he] at h
          exact .inr (.inr (.inr (.inr (.inl ⟨rfl, rfl, rfl, by simpa [acknowledge] using h.symm⟩))))
        · rw [consumeByte_data hb hd he hm] at h
          exact .inr (.inr (.inr (.inr (.inr ⟨hb, hm, rfl, rfl, h⟩))))

/-! ## The branches of ENC_FRAME -/

/-- The ways `ENC_FRAME` on a ready instance can answer a next state (60_exceptions.md R239). -/
theorem encodeFrame_cases {s t : State} {ovf : Bool} {n : Nat} {frame : List Byte}
    (h : encodeFrame s ovf n frame = .next t) :
    (ovf = false ∧ n ≤ s.cfg.hdrLen ∧ t = respond s (.encResult .einval 0 none)) ∨
    ((ovf = true ∨ s.cfg.hdrLen < n) ∧
      ((∃ o, allocatorAnswer s = .ok o ∧ allocatorMayGive s o = true ∧
        t = emitFrame (afterOutAlloc s o) o ovf frame) ∨
      (allocatorAnswer s = .fail ∧
        t = raiseFault (emit (allocatorAnswered s) (.outAlloc .fail)) .allocFail) ∨
      (allocatorAnswer s = .silent ∧
        t = { emit (allocatorAnswered s) (.outAlloc .silent) with
          wait := some .outAllocator }))) := by
  unfold encodeFrame at h
  split at h
  · rename_i hc
    simp only [Bool.and_eq_true, Bool.not_eq_true', decide_eq_true_eq] at hc
    exact .inl ⟨hc.1, hc.2, by simpa using h.symm⟩
  · rename_i hc
    refine .inr ⟨?_, ?_⟩
    · cases ovf <;> simp_all
    · rw [outAlloc_eq] at h
      cases ha : allocatorAnswer s with
      | ok o =>
        simp only [ha] at h
        by_cases hg : allocatorMayGive s o = true
        · simp only [hg, if_true] at h
          exact .inl ⟨o, rfl, hg, by simpa using h.symm⟩
        · simp only [hg] at h
          simp at h
      | fail => simp only [ha] at h; exact .inr (.inl ⟨rfl, by simpa using h.symm⟩)
      | silent => simp only [ha] at h; exact .inr (.inr ⟨rfl, by simpa using h.symm⟩)

end Sys2Proof.Machine
end

