-- ==== Sys2Proof/Laws/PerInstr.lean ====
section
/-!
SUPPORT. Statements about every instruction as syntax, one lemma per constructor. Family TableRow: the
command word of an instruction is selected by the opcode-map row of its mnemonic and by no other row
(30_encoding.md R94).
-/
namespace Sys2Proof.Laws.TableRow

/-- The rows that select the instruction's word are exactly the rows of its mnemonic. -/
def Statement (i : Instr) : Prop :=
  ∀ r ∈ opcodeMap, (r.selectedBy (encode i) = true ↔ r.mnemonic = i.mnemonic)

theorem decReset : Statement .decReset := by unfold Statement; decide

theorem decByte (b : Byte) : Statement (.decByte b) := by
  unfold Statement
  revert b
  decide

theorem decEnd : Statement .decEnd := by unfold Statement; decide

theorem encClear : Statement .encClear := by unfold Statement; decide

theorem encLoad (b : Byte) : Statement (.encLoad b) := by
  unfold Statement
  revert b
  decide

theorem encFrame : Statement .encFrame := by unfold Statement; decide

end Sys2Proof.Laws.TableRow
end

