-- ==== Sys2Proof/Laws/Trace.lean ====
section
/-!
SUPPORT. What each event adds to the deliveries and the responses of a state, and what leaves them alone.
-/
namespace Sys2Proof.Machine

/-- The deliveries depend on the trace alone. -/
theorem deliveries_congr {s t : State} (h : t.trace = s.trace) : deliveries t = deliveries s := by
  simp [deliveries, h]

/-- The responses depend on the trace alone. -/
theorem responses_congr {s t : State} (h : t.trace = s.trace) : responses t = responses s := by
  simp [responses, h]

/-! ## One event at the head of a trace -/

/-- A delivery adds one delivery. -/
theorem deliveries_of_deliver {s t : State} {c h n : Nat} {l : List (Option Byte)}
    {a : ConsumerAnswer} (ht : t.trace = .deliver c h n l a :: s.trace) :
    deliveries t = .deliver c h n l a :: deliveries s := by
  rw [deliveries, ht]; rfl

/-- Every event but a delivery leaves the deliveries alone. -/
theorem deliveries_of_other {s t : State} {e : Event} (he : isDelivery e = false)
    (ht : t.trace = e :: s.trace) : deliveries t = deliveries s := by
  rw [deliveries, ht, List.filter_cons, he]; rfl

/-- A response adds one response. -/
theorem responses_of_response {s t : State} {r : Response} (ht : t.trace = .response r :: s.trace) :
    responses t = .response r :: responses s := by
  rw [responses, ht]; rfl

/-- Every event but a response leaves the responses alone. -/
theorem responses_of_other {s t : State} {e : Event} (he : isResponse e = false)
    (ht : t.trace = e :: s.trace) : responses t = responses s := by
  rw [responses, ht, List.filter_cons, he]; rfl

/-! ## The named updates -/

@[simp] theorem deliveries_respond (s : State) (r : Response) :
    deliveries (respond s r) = deliveries s := rfl

@[simp] theorem responses_respond (s : State) (r : Response) :
    responses (respond s r) = .response r :: responses s := rfl

@[simp] theorem deliveries_afterDecReset (s : State) :
    deliveries (afterDecReset s) = deliveries s := rfl

@[simp] theorem responses_afterDecReset (s : State) :
    responses (afterDecReset s) = responses s := rfl

@[simp] theorem deliveries_afterAppend (s : State) (b : Byte) :
    deliveries (afterAppend s b) = deliveries s := rfl

@[simp] theorem responses_afterAppend (s : State) (b : Byte) :
    responses (afterAppend s b) = responses s := rfl

@[simp] theorem deliveries_raiseFault (s : State) (c : FaultCode) :
    deliveries (raiseFault s c) = deliveries s := rfl

@[simp] theorem responses_raiseFault (s : State) (c : FaultCode) :
    responses (raiseFault s c) = .response (.faulted c) :: responses s := rfl

/-- The delivery an exchange with the consumer adds. -/
theorem deliveries_deliver (s : State) (h n : Nat) :
    deliveries (deliver s h n) =
      .deliver s.cfg.instId h n (seenAtDelivery s h n) (consumerAnswer s) :: deliveries s :=
  deliveries_of_deliver (deliver_trace s h n)

@[simp] theorem responses_deliver (s : State) (h n : Nat) :
    responses (deliver s h n) = responses s :=
  responses_of_other rfl (deliver_trace s h n)

@[simp] theorem responses_askingPool (s : State) : responses (askingPool s) = responses s :=
  (responses_congr (by simp [askingPool])).trans (responses_deliver s s.decBuf (s.decLen - 2))

theorem deliveries_askingPool (s : State) :
    deliveries (askingPool s) = deliveries (deliver s s.decBuf (s.decLen - 2)) :=
  deliveries_congr (by simp [askingPool])

/-- The acquisition after an accepted delivery adds no delivery and no response. -/
@[simp] theorem deliveries_afterAccept (s : State) (h : Nat) :
    deliveries (afterAccept s h) = deliveries (askingPool s) := by
  refine deliveries_of_other (e := .acquire (.ok h)) rfl ?_
  simp [afterAccept, afterAcquire]

@[simp] theorem responses_afterAccept (s : State) (h : Nat) :
    responses (afterAccept s h) = responses s := by
  rw [← responses_askingPool s]
  refine responses_of_other (e := .acquire (.ok h)) rfl ?_
  simp [afterAccept, afterAcquire]

end Sys2Proof.Machine
end

