-- ==== Sys2Proof/Tests/Slice0.lean ====
section
/-!
SUPPORT. Small tests from the vectors of 95_test_vectors.md, each one step or one function, and for
every obligation with hypotheses a theorem that some state and operands meet them all.
-/
namespace Sys2Proof.Tests

open Sys2Proof Sys2Proof.Machine

/-! ## Well-formedness -/

/-- The configuration of 00_scope.md R10, with a tag and handle widths of the tests' own. -/
def cfg : Params :=
  { bufSize := 24, hdrLen := 4, mru := 12, bufIdW := 8, outIdW := 8, nInst := 1, instId := 0,
    tagInit := 0xA5#8 }

theorem test_cfg_wf : cfg.wf := by decide
theorem test_wf_bufSize : ¬ { cfg with bufSize := 8 }.wf := by decide
theorem test_wf_mru : ¬ { cfg with mru := 0 }.wf := by decide
theorem test_wf_bufIdW : ¬ { cfg with bufIdW := 0 }.wf := by decide
theorem test_wf_outIdW : ¬ { cfg with outIdW := 0 }.wf := by decide
theorem test_wf_nInst : ¬ { cfg with nInst := 0 }.wf := by decide
theorem test_wf_instId : ¬ { cfg with instId := 1 }.wf := by decide

/-- The derived sizes of R10's configuration: `CAP = 16`, `OUT_CAP = ENC_IN_MAX = 37`, `LEN_W = 6`. -/
theorem test_sizes : cfg.cap = 16 ∧ cfg.outCap = 37 ∧ cfg.encInMax = 37 ∧ cfg.lenW = 6 := by decide

/-- A word that breaks each check of R95 is refused (V-X1, V-X4, V-X5, V-X8), a legal one is not. -/
theorem test_legalWord : legalWord 0x0000#16 = false ∧ legalWord 0xF0FF#16 = false ∧
    legalWord 0x1001#16 = false ∧ legalWord 0x2100#16 = false ∧ legalWord 0x20FF#16 = true := by
  decide

/-! ## Decoding -/

theorem test_decode_decReset : decode 0b0001000000000000#16 = .ok .decReset := by decide
theorem test_decode_decByte : decode 0b0010000001111110#16 = .ok (.decByte 0x7E#8) := by decide
theorem test_decode_decEnd : decode 0b0011000000000000#16 = .ok .decEnd := by decide
theorem test_decode_encClear : decode 0b0100000000000000#16 = .ok .encClear := by decide
theorem test_decode_encLoad : decode 0b0101000011111111#16 = .ok (.encLoad 0xFF#8) := by decide
theorem test_decode_encFrame : decode 0b0110000000000000#16 = .ok .encFrame := by decide

/-- V-X1 to V-X10: each word is refused, by the first check of R96 it fails. -/
theorem test_decode_illegal :
    decode 0x0000#16 = .error .reservedOpcode ∧ decode 0x7000#16 = .error .reservedOpcode ∧
    decode 0x8000#16 = .error .reservedOpcode ∧ decode 0xF0FF#16 = .error .unusedOperand ∧
    decode 0x1001#16 = .error .unusedOperand ∧ decode 0x3080#16 = .error .unusedOperand ∧
    decode 0x4001#16 = .error .unusedOperand ∧ decode 0x2100#16 = .error .reservedBits ∧
    decode 0x5F41#16 = .error .reservedBits ∧ decode 0x6100#16 = .error .reservedBits := by decide

theorem test_encode : encode (.encLoad 0x41#8) = 0x5041#16 ∧ encode .encFrame = 0x6000#16 := by decide

theorem test_decodeTableWord : decodeTableWord 16 0x207E = some (.decByte 0x7E#8) ∧
    decodeTableWord 16 0x7000 = none := by decide

/-- R102: the examples of the assembler syntax; R103: the expansion of `DECODE`. -/
theorem test_assemble_examples :
    assembleLine "ENC_LOAD 0xFF  # a comment".toList = .ok [0x50FF#16] ∧
    assembleLine ".word 0x7000".toList = .ok [0x7000#16] ∧
    assembleLine "DECODE 0x7E, 126".toList = .ok [0x207E#16, 0x207E#16, 0x3000#16] := by decide

/-- Every kind of digit stands for its value. -/
theorem test_digits : hexValue '9' = some 9 ∧ hexValue 'A' = some 10 ∧ hexValue 'f' = some 15 ∧
    hexValue 'g' = none ∧ decimalValue 'A' = none := by decide

/-! ## States and readings -/

/-- The start state of the vectors: after reset, with handle 0 and a pool and an output allocator that
hand out the handles 1 and 0 next. -/
def start : State :=
  { State.reset with cfg := cfg, fb := [(7, 0xA5#8)], acquires := [.ok 1], outAllocs := [.ok 0] }

/-- The bytes of a frame with their addresses, from address `a` on. -/
def cells : Nat → List Byte → Memory
  | _, [] => []
  | a, b :: bs => (a, b) :: cells (a + 1) bs

/-- The start state with these bytes assembled, and the consumer's next answers. -/
def assembled (l : List Byte) (codes : List ConsumerAnswer) : State :=
  { start with decLen := l.length, decCrc := crc16 l, fb := cells 7 (0xA5#8 :: l), codes := codes }

/-- Frame A and its check sequence as the wire carries it (V-E3). -/
def frameA : List Byte := [0xFF#8, 0x03#8, 0xC0#8, 0x21#8, 0x01#8]

/-- The start state with frame A assembled, before the closing `FLAG` of V-D3. -/
def beforeFlagA (codes : List ConsumerAnswer) : State := assembled (frameA ++ [0x18#8, 0x3E#8]) codes

/-- The start state with these bytes staged. -/
def staged (l : List Byte) : State :=
  { start with encN := l.length, encIn := l ++ List.replicate (37 - l.length) 0x00#8 }

/-- What a reading gives in the next state, if there is one. -/
def after {α : Type} (r : Result) (f : State → α) : Option α :=
  match r with
  | .next s => some (f s)
  | .fault _ => none
  | .refused _ => none

/-! ## The checksum -/

/-- V-C1, V-C5, V-C7, V-C8, V-C9. -/
theorem test_crc_update : crc16Update 0xFFFF#16 0x00#8 = 0x0F87#16 ∧
    crc16Update 0xFFFF#16 0x7E#8 = 0x957E#16 ∧ crc16Update 0x1234#16 0x56#8 = 0x4006#16 ∧
    crc16Update 0xABCD#16 0xEF#8 = 0x02BB#16 ∧ crc16Update 0xF0B8#16 0x00#8 = 0x3933#16 := by decide

/-- V-C7, V-C8 in the bit-serial form. -/
theorem test_crc_serial : crc16UpdateSerial 0x1234#16 0x56#8 = 0x4006#16 ∧
    crc16UpdateSerial 0xABCD#16 0xEF#8 = 0x02BB#16 := by decide

/-- V-C15. -/
theorem test_crc_frameA : crc16 frameA = 0xC1E7#16 ∧ fcsBytes frameA = [0x18#8, 0x3E#8] := by decide

/-! ## The decoder, one step each -/

/-- V-R1: the length is rewound and the escape cleared; the buffer and its bytes stay. -/
theorem test_decReset :
    after (exec .decReset { assembled [0x41#8, 0x42#8] [] with decEsc := true })
      (fun t => (t.decLen, t.decEsc, t.decCrc, fbRead t 0 7, fbRead t 0 9)) =
    some (0, false, 0xFFFF#16, some 0xA5#8, some 0x42#8) := by decide

/-- V-R2: the pending status survives a reset of the decoder. -/
theorem test_decReset_pend :
    after (exec .decReset { start with decLen := 16, decDiscard := true, decPend := 7 })
      (fun t => (t.decDiscard, t.decPend)) = some (false, 7#32) := by decide

/-- V-D3, its last byte: one delivery of frame A, the consumer owns buffer 0, the decoder has 1. -/
theorem test_flag_accepted :
    after (exec (.decByte 0x7E#8) (beforeFlagA [.code 0]))
      (fun t => (t.decBuf, t.decLen, frameOwner t 0, deliveries t)) =
    some (1, 0, some .consumer, [.deliver 0 0 5
      [some 0xA5#8, some 0xFF#8, some 0x03#8, some 0xC0#8, some 0x21#8, some 0x01#8] (.code 0)]) := by
  decide

/-- V-D14: the first nonzero code is recorded and the buffer kept. -/
theorem test_flag_rejected :
    after (exec (.decByte 0x7E#8) (beforeFlagA [.code 7]))
      (fun t => (t.decBuf, t.decLen, t.decPend, frameOwner t 0)) =
    some (0, 0, 7#32, some .dec) := by decide

/-- V-D2: two assembled bytes of good residue are no frame. -/
theorem test_flag_short :
    after (exec (.decByte 0x7E#8) (assembled [0x00#8, 0x00#8] [.code 0]))
      (fun t => (deliveries t, t.decLen, t.decCrc)) = some ([], 0, 0xFFFF#16) := by decide

/-- V-D24: the acquisition after the delivery fails. -/
theorem test_flag_allocFail :
    after (exec (.decByte 0x7E#8) { beforeFlagA [.code 0] with acquires := [.fail] })
      (fun t => (t.fault, t.decLen, t.decCrc, frameOwner t 0, responses t)) =
    some (.allocFail, 7, 0xF0B8#16, some .consumer, [.response (.faulted .allocFail)]) := by decide

/-- V-D17: after an escape any byte is un-transformed. -/
theorem test_escaped_byte :
    after (exec (.decByte 0x41#8) { assembled [0x5D#8] [] with decEsc := true })
      (fun t => (t.decLen, t.decEsc, fbRead t 0 9)) = some (2, false, some 0x61#8) := by decide

/-- V-D20: an un-transformed byte that finds the buffer full turns to discard mode. -/
theorem test_full_buffer :
    after (exec (.decByte 0x7D#8) { start with decLen := 16, decEsc := true })
      (fun t => (t.decLen, t.decEsc, t.decDiscard)) = some (16, false, true) := by decide

/-- V-D14, V-D22: the pending status is answered whole and cleared. -/
theorem test_decEnd :
    after (exec .decEnd { start with decPend := 0x80000000#32 })
      (fun t => (t.decPend, responses t)) =
    some (0#32, [.response (.status 0x80000000#32)]) := by decide

/-- R256: a consumer that gives the accepted buffer back before the pool answers, and a pool that gives
the same buffer again. -/
theorem test_flag_released :
    after (exec (.decByte 0x7E#8) { beforeFlagA [.acceptAndRelease] with acquires := [.ok 0] })
      (fun t => (t.decBuf, t.decLen, frameOwner t 0, fbRead t 0 7, fbRead t 0 8)) =
    some (0, 0, some .dec, some 0xA5#8, none) := by decide

/-- R97, R238: the record of a result and of a fault. -/
theorem test_record :
    Response.record (.encResult .emsgsize 0 none) =
      { kind := 2, code := none, est := some 2#2, olen := some 0, oh := none, reason := none } ∧
    (Response.record (.faulted .allocFail)).reason = some 2#2 := by decide

/-- R284: an action still to come leaves a run finished, a command word and a hang do not. -/
theorem test_finished : finished { start with inputs := [.action (.hostRelease 0)] } = true ∧
    finished { start with inputs := [.command 0x3000#16] } = false ∧
    finished { start with wait := some .pool } = false := by decide

/-- The choice of log 24: after a hardware reset that cut off a hung command the run counts as finished. -/
theorem test_finished_after_reset :
    after (step { start with wait := some .consumer, acquires := [.ok 0],
                             inputs := [.action .hardwareReset] }) successful = some true := by decide

/-! ## The encoder, one step each -/

/-- V-L2, its third word. -/
theorem test_encClear :
    after (exec .encClear { staged [0x41#8, 0x42#8] with encOvf := true })
      (fun t => (t.encN, t.encOvf, responses t)) = some (0, false, [.response .ack]) := by decide

/-- V-L1, its second word. -/
theorem test_encLoad :
    after (exec (.encLoad 0x42#8) (staged [0x41#8])) (fun t => (t.encN, t.encIn.take 2)) =
    some (2, [0x41#8, 0x42#8]) := by decide

/-- V-L3, its last word. -/
theorem test_encLoad_full :
    after (exec (.encLoad 0x41#8) (staged (List.replicate 37 0x41#8)))
      (fun t => (t.encN, t.encOvf)) = some (37, true) := by decide

/-- V-E3. -/
theorem test_encFrame :
    after (exec .encFrame (staged frameA))
      (fun t => (responses t, t.encN, outOwner t 0, (List.range 12).map (obRead t 0))) =
    some ([.response (.encResult .ok 12 (some 0))], 0, some .host,
      [0x7E#8, 0xFF#8, 0x7D#8, 0x23#8, 0xC0#8, 0x21#8, 0x7D#8, 0x21#8, 0x7D#8, 0x38#8, 0x3E#8,
       0x7E#8].map some) := by decide

/-- V-E9: the 38th write finds the output buffer full and the buffer is released. -/
theorem test_encFrame_worst :
    after (exec .encFrame (staged (List.replicate 14 0x7E#8 ++ [0x01#8, 0x07#8])))
      (fun t => (responses t, outOwner t 0, t.encN)) =
    some ([.response (.encResult .emsgsize 0 none)], none, 0) := by decide

/-- V-E8c: 37 bytes just fit. -/
theorem test_wire_fits :
    (wireBytes (List.replicate 15 0x7E#8 ++ [0x00#8])).length = 37 := by decide

/-- R190: the escape set at its edges, and that it has exactly 34 bytes. -/
theorem test_needsEsc : needsEsc 0x02#8 = true ∧ needsEsc 0x1F#8 = true ∧ needsEsc 0x20#8 = false ∧
    needsEsc 0x5E#8 = false ∧ needsEsc 0x7F#8 = false ∧ needsEsc 0x80#8 = false ∧
    ((List.range 256).filter fun n => needsEsc (BitVec.ofNat 8 n)).length = 34 := by decide

/-- V-E1: a frame of `HDR_LEN` bytes is refused before any allocation. -/
theorem test_encFrame_short :
    after (exec .encFrame (staged [0xFF#8, 0x03#8, 0x80#8, 0x21#8]))
      (fun t => (t.trace, t.encN)) = some ([.response (.encResult .einval 0 none)], 0) := by decide

/-! ## Steps -/

/-- V-X11: a faulted instance answers a legal word with its fault. -/
theorem test_faulted :
    after (step { start with fault := .illegalCmd, inputs := [.command 0x5041#16] })
      (fun t => (t.fault, t.encN, responses t)) =
    some (.illegalCmd, 0, [.response (.faulted .illegalCmd)]) := by decide

/-- V-X12: a hardware reset brings a faulted instance back, with handle 0 from its pool. -/
theorem test_hardwareReset :
    after (step { start with fault := .illegalCmd, fbOwner := [(0, .consumer)], acquires := [.ok 0],
                             inputs := [.action .hardwareReset] })
      (fun t => (t.fault, t.decBuf, frameOwner t 0, responses t)) =
    some (.none, 0, some .dec, []) := by decide

theorem test_withFetchWord :
    after (step (State.reset.withFetchWord 16 0x5041)) (fun t => (t.encN, t.inputs)) =
    some (1, []) := by decide

/-! ## Witnesses: states and operands that meet every hypothesis of a statement -/

/-- A word, its instruction and its row. -/
theorem witness_DecodedWordsAreTheMapRows : decode 0x20FF#16 = .ok (.decByte 0xFF#8) ∧
    ⟨"DEC_BYTE", 0x2000#16, 0xFF00#16⟩ ∈ opcodeMap := by decide

/-- The least and the greatest illegal word on the start state. -/
theorem witness_IllegalWordsByField : Ready start ∧ legalWord 0x0000#16 = false ∧
    legalWord 0xFFFF#16 = false := by decide

theorem witness_StepRunsTheDecodedInstruction :
    { start with inputs := [.command 0x20FF#16] }.inputs = .command 0x20FF#16 :: [] ∧
    decode 0x20FF#16 = .ok (.decByte 0xFF#8) ∧
    { start with inputs := [.command 0x7000#16] }.inputs = .command 0x7000#16 :: [] ∧
    decode 0x7000#16 = .error .reservedOpcode ∧
    { start with inputs := [.action (.hostRelease 0)] }.inputs = .action (.hostRelease 0) :: [] ∧
    start.inputs = [] := ⟨rfl, by decide, rfl, by decide, rfl, rfl⟩

/-- A faulted instance with a word to meet. -/
def faulted : State := { start with fault := .allocFail, inputs := [.command 0x3000#16] }

theorem witness_FaultedInstanceOnlyResponds : faulted.wait = none ∧ faulted.fault ≠ .none ∧
    faulted.inputs = .command 0x3000#16 :: [] := by decide

theorem witness_IllegalWordRaisesIllegalCmd :
    Ready { start with inputs := [.command 0x0FFF#16] } ∧ legalWord 0x0FFF#16 = false ∧
    { start with inputs := [.command 0x0FFF#16] }.inputs = .command 0x0FFF#16 :: [] := by decide

theorem witness_OnlyHardwareResetClearsFault : faulted.fault ≠ .none ∧
    faulted.inputs.head? ≠ some (.action .hardwareReset) ∧ ∃ t, step faulted = .next t :=
  ⟨by decide, by decide, _, rfl⟩

/-- A hung instance, with an action of another party to meet. -/
def hung : State :=
  { start with wait := some .consumer, fbOwner := [(0, .dec), (1, .consumer)],
               inputs := [.action (.consumerRelease 1)] }

theorem witness_HungInstanceStaysStuck : hung.wait ≠ none ∧
    hung.inputs.head? ≠ some (.action .hardwareReset) ∧ ∃ t, step hung = .next t :=
  ⟨by decide, by decide, _, rfl⟩

/-- A command that ends, and one that hangs. -/
theorem witness_OneResponsePerCommand : (∃ t, exec .decEnd start = .next t ∧ t.wait = none) ∧
    ∃ t, exec (.decByte 0x7E#8) (beforeFlagA [.silent]) = .next t ∧ t.wait ≠ none :=
  ⟨⟨_, rfl, rfl⟩, _, rfl, by decide⟩

/-- The greatest handle of the configuration. -/
theorem witness_HardwareResetGranted : 8 ≤ start.cfg.bufSize ∧
    poolAnswer (powerOn { start with acquires := [.ok 255] }) = .ok 255 ∧
    255 < 2 ^ start.cfg.bufIdW := by decide

theorem witness_HardwareResetFailed :
    poolAnswer (powerOn { start with acquires := [.fail] }) = .fail := by decide

/-- Also for `DecEndCompletes` and `EncClearCompletes`. -/
theorem witness_DecResetCompletes : Ready start ∧ 8 ≤ start.cfg.bufSize := by decide

/-- Malformed by the length alone, at its boundary, and by each of the other three conditions. -/
theorem witness_FlagDropsMalformedFrame :
    Ready (assembled [0x00#8, 0x00#8] []) ∧ ¬ WellFormedFrame (assembled [0x00#8, 0x00#8] []) ∧
    (assembled [0x00#8, 0x00#8] []).decCrc = 0xF0B8#16 ∧
    ¬ WellFormedFrame { beforeFlagA [] with decEsc := true } ∧
    ¬ WellFormedFrame { beforeFlagA [] with decDiscard := true } ∧
    ¬ WellFormedFrame { beforeFlagA [] with decCrc := 0xF0B9#16 } := by decide

/-- A frame of the least length (V-D19: one byte) and of the greatest (V-D12: `CAP` bytes). -/
theorem witness_WellFormedFrame :
    WellFormedFrame (assembled [0x41#8, 0xF5#8, 0xA3#8] []) ∧
    WellFormedFrame (assembled (List.replicate 14 0x41#8 ++ [0xE4#8, 0x44#8]) []) := by decide

theorem witness_FlagDeliversAcceptedFrame :
    Ready (beforeFlagA [.code 0]) ∧ 8 ≤ (beforeFlagA [.code 0]).cfg.bufSize ∧
    WellFormedFrame (beforeFlagA [.code 0]) ∧
    answeredCode (consumerAnswer (beforeFlagA [.code 0])) = some 0 ∧
    poolAnswer (askingPool (beforeFlagA [.code 0])) = .ok 1 ∧
    poolMayGive (askingPool (beforeFlagA [.code 0])) 1 = true := by decide

/-- The same with a buffer given back at once and given out again. -/
theorem witness_FlagDeliversAcceptedFrame_released :
    Ready { beforeFlagA [.acceptAndRelease] with acquires := [.ok 0] } ∧
    WellFormedFrame { beforeFlagA [.acceptAndRelease] with acquires := [.ok 0] } ∧
    answeredCode (consumerAnswer { beforeFlagA [.acceptAndRelease] with acquires := [.ok 0] }) =
      some 0 ∧
    poolAnswer (askingPool { beforeFlagA [.acceptAndRelease] with acquires := [.ok 0] }) = .ok 0 ∧
    poolMayGive (askingPool { beforeFlagA [.acceptAndRelease] with acquires := [.ok 0] }) 0 = true := by
  decide

/-- Also for `RejectionReachesDecEnd`: a first code, and one after an earlier one. -/
theorem witness_FlagDeliversRejectedFrame :
    Ready (beforeFlagA [.code 7]) ∧ WellFormedFrame (beforeFlagA [.code 7]) ∧
    consumerAnswer (beforeFlagA [.code 7]) = .code 7 ∧ (7 : Code) ≠ 0 ∧
    (beforeFlagA [.code 7]).decPend = 0 ∧
    Ready { beforeFlagA [.code 0xFFFFFFFD#32] with decPend := 7 } ∧
    consumerAnswer { beforeFlagA [.code 0xFFFFFFFD#32] with decPend := 7 } =
      .code 0xFFFFFFFD#32 := by decide

theorem witness_AcceptedDeliveryAllocFail :
    Ready { beforeFlagA [.code 0] with acquires := [.fail] } ∧
    WellFormedFrame { beforeFlagA [.code 0] with acquires := [.fail] } ∧
    answeredCode (consumerAnswer { beforeFlagA [.code 0] with acquires := [.fail] }) = some 0 ∧
    poolAnswer (askingPool { beforeFlagA [.code 0] with acquires := [.fail] }) = .fail := by decide

theorem witness_FlagHangsWithoutAnswer :
    Ready (beforeFlagA [.silent]) ∧ consumerAnswer (beforeFlagA [.silent]) = .silent ∧
    WellFormedFrame (beforeFlagA [.silent]) ∧
    answeredCode (consumerAnswer { beforeFlagA [.code 0] with acquires := [.silent] }) = some 0 ∧
    poolAnswer (askingPool { beforeFlagA [.code 0] with acquires := [.silent] }) = .silent := by
  decide

/-- `ESC` is skipped too. -/
theorem witness_DiscardModeSkipsByte :
    Ready { start with decLen := 16, decDiscard := true } ∧ (0x7D#8 : Byte) ≠ 0x7E#8 ∧
    { start with decLen := 16, decDiscard := true }.decDiscard = true := by decide

theorem witness_EscapeMarkerSetsEsc : Ready start ∧ start.decDiscard = false ∧
    start.decEsc = false := by decide

/-- Both ways to a full buffer: a byte after an escape (V-D20) and a data byte (V-D11). -/
theorem witness_FullBufferEntersDiscard :
    Ready { start with decLen := 16, decEsc := true } ∧
    { start with decLen := 16, decEsc := true }.decEsc = true ∧
    { start with decLen := 16 }.decLen = { start with decLen := 16 }.cfg.cap ∧
    (0x41#8 : Byte) ≠ 0x7D#8 := by decide

/-- The last free place of the buffer, for a data byte and for a byte after an escape. -/
theorem witness_DataByteIsAppended :
    Ready { start with decLen := 15, decEsc := true } ∧
    { start with decLen := 15 }.decLen < { start with decLen := 15 }.cfg.cap ∧
    (0x5D#8 : Byte) = 0x7D#8 ^^^ 0x20#8 ∧ start.decDiscard = false ∧ start.decEsc = false := by
  decide

/-- Both cases of the conclusion: the decoder restarts, and the acquisition fails. -/
theorem witness_FlagResynchronises :
    (∃ t, exec (.decByte 0x7E#8) { start with decLen := 16, decDiscard := true } = .next t ∧
      t.wait = none) ∧
    ∃ t, exec (.decByte 0x7E#8) { beforeFlagA [.code 0] with acquires := [.fail] } = .next t ∧
      t.wait = none ∧ t.fault = .allocFail :=
  ⟨⟨_, rfl, rfl⟩, _, rfl, rfl, rfl⟩

/-- Also for `UnitsShareNoState` and `FrameMemoryNeverRead`: commands that answer a next state. -/
theorem witness_CommandsAnswer :
    (∃ t, exec .decReset start = .next t) ∧
    (∃ t, exec (.decByte 0x41#8) { start with decLen := 15 } = .next t) ∧
    (∃ t, exec .decEnd start = .next t) ∧ (∃ t, exec .encClear start = .next t) ∧
    (∃ t, exec (.encLoad 0x41#8) start = .next t) ∧
    ∃ t, exec .encFrame (staged frameA) = .next t :=
  ⟨⟨_, rfl⟩, ⟨_, rfl⟩, ⟨_, rfl⟩, ⟨_, rfl⟩, ⟨_, rfl⟩, _, rfl⟩

/-- A byte the memory frames speak of: the neighbour of the one `DEC_BYTE` writes, and at a `FLAG` the
neighbour of the tag. -/
theorem witness_DecByteMemoryFrame :
    (∃ t, exec (.decByte 0x41#8) { start with decLen := 15 } = .next t ∧ 22 ≠ 8 + 15) ∧
    ∃ t, exec (.decByte 0x7E#8) (beforeFlagA [.code 7]) = .next t ∧ 0 = t.decBuf ∧
      ¬ JustAcquired (beforeFlagA [.code 7]) t 0 ∧ 6 ≠ 7 :=
  ⟨⟨_, rfl, by decide⟩, _, rfl, rfl, by
    rintro ⟨e, h⟩
    have hl : 2 = 3 := congrArg List.length h
    simp at hl, by decide⟩

theorem witness_CommandMemoryFrames : Ready { start with decLen := 15 } ∧
    { start with decLen := 15 }.decLen < { start with decLen := 15 }.cfg.cap ∧
    ∃ t, exec (.decByte 0x41#8) { start with decLen := 15 } = .next t :=
  ⟨by decide, by decide, _, rfl⟩

/-- Two splits of the same bytes. -/
theorem witness_ChunkingInvariance :
    [Instr.decByte 0x7E#8, .decEnd, .decByte 0x41#8].all isDecodeCommand = true ∧
    [Instr.decByte 0x7E#8, .decByte 0x41#8, .decEnd].all isDecodeCommand = true ∧
    fedBytes [.decByte 0x7E#8, .decEnd, .decByte 0x41#8] =
      fedBytes [.decByte 0x7E#8, .decByte 0x41#8, .decEnd] ∧ Ready start ∧
    ∃ t, runCommands [.decByte 0x7E#8, .decEnd, .decByte 0x41#8] start = .next t ∧ t.wait = none :=
  ⟨by decide, by decide, by decide, by decide, _, rfl, rfl⟩

/-- The last place of the staging, and a full one. -/
theorem witness_EncLoadCompletes : Ready { start with encN := 36 } ∧
    { start with encN := 36 }.encN < { start with encN := 36 }.cfg.encInMax ∧
    { start with encN := 37 }.cfg.encInMax ≤ { start with encN := 37 }.encN := by decide

/-- A frame of exactly `HDR_LEN` bytes (V-E1). -/
theorem witness_EncFrameTooShort : Ready (staged [0xFF#8, 0x03#8, 0x80#8, 0x21#8]) ∧
    (staged [0xFF#8, 0x03#8, 0x80#8, 0x21#8]).encOvf = false ∧
    (staged [0xFF#8, 0x03#8, 0x80#8, 0x21#8]).encN = start.cfg.hdrLen := by decide

/-- A frame of `HDR_LEN + 1` bytes (V-E3), and one whose wire form is exactly `OUT_CAP` bytes (V-E8c). -/
theorem witness_EncFrameSucceeds : Ready (staged frameA) ∧ (staged frameA).encOvf = false ∧
    (staged frameA).encN = start.cfg.hdrLen + 1 ∧
    allocatorAnswer (clearStaging (staged frameA)) = .ok 0 ∧
    allocatorMayGive (staged frameA) 0 = true ∧
    (wireBytes ((staged frameA).encIn.take (staged frameA).encN)).length ≤ start.cfg.outCap ∧
    (wireBytes (List.replicate 15 0x7E#8 ++ [0x00#8])).length = start.cfg.outCap := by decide

/-- The worst case of R205 (V-E9), one byte too long, and an overflowed staging (V-E12). -/
theorem witness_EncFrameTooLarge :
    Ready (staged (List.replicate 14 0x7E#8 ++ [0x01#8, 0x07#8])) ∧
    start.cfg.outCap + 1 = (wireBytes (List.replicate 14 0x7E#8 ++ [0x01#8, 0x07#8])).length ∧
    { start with encN := 37, encOvf := true }.encOvf = true ∧
    allocatorAnswer (clearStaging { start with encN := 37, encOvf := true }) = .ok 0 ∧
    allocatorMayGive { start with encN := 37, encOvf := true } 0 = true := by decide

theorem witness_EncFrameAllocFails : Ready { staged frameA with outAllocs := [.fail] } ∧
    start.cfg.hdrLen < (staged frameA).encN ∧
    allocatorAnswer (clearStaging { staged frameA with outAllocs := [.fail] }) = .fail ∧
    allocatorAnswer (clearStaging { staged frameA with outAllocs := [.silent] }) = .silent := by
  decide

/-- A place for the bytes; `test_needsEsc` has bytes that are and are not escaped. -/
theorem witness_StuffingIsInvertible : Ready start ∧ start.decDiscard = false ∧
    start.decEsc = false ∧ start.decLen < start.cfg.cap := by decide

/-- R205's three lengths: 15, 16 and 34 bytes in R10's configuration. -/
theorem witness_WhichFramesFit :
    (List.replicate 15 0x7E#8).length + 1 ≤ cfg.mru + cfg.hdrLen ∧
    (List.replicate 14 0x7E#8 ++ [0x01#8, 0x07#8]).length = cfg.mru + cfg.hdrLen ∧
    2 * (cfg.mru + cfg.hdrLen) + 2 ≤ (List.replicate 34 0x41#8).length := by decide

/-- Two stagings that differ only past `ENC.n`. -/
theorem witness_StagingPastEndNeverRead :
    (frameA ++ [0x7E#8]).take (staged frameA).encN =
      (staged frameA).encIn.take (staged frameA).encN ∧
    ∃ t, exec .encFrame (staged frameA) = .next t := ⟨by decide, _, rfl⟩

theorem witness_EncodeCallEncodesItsFrame : Ready start ∧
    start.encIn.length = start.cfg.encInMax ∧ start.cfg.hdrLen < frameA.length ∧
    (wireBytes frameA).length ≤ start.cfg.outCap ∧
    allocatorAnswer (clearStaging start) = .ok 0 ∧ allocatorMayGive start 0 = true := by decide

/-- Frame A, encoded, with the wire bytes of V-E3. -/
theorem witness_RoundTrip : Ready start ∧ 8 ≤ start.cfg.bufSize ∧
    start.encIn.length = start.cfg.encInMax ∧ start.cfg.hdrLen < frameA.length ∧
    frameA.length + 2 ≤ start.cfg.cap ∧ DecoderFresh start ∧
    after (runCommands (encodeCall frameA) start) (fun t =>
      (t.trace.head?, (List.range 12).map (obRead t 0))) =
    some (some (.response (.encResult .ok 12 (some 0))),
      [0x7E#8, 0xFF#8, 0x7D#8, 0x23#8, 0xC0#8, 0x21#8, 0x7D#8, 0x21#8, 0x7D#8, 0x38#8, 0x3E#8,
       0x7E#8].map some) := by decide

/-- A state with a whole frame in the buffer, whose next step delivers it, and an earlier buffer still
with the consumer. -/
def delivering : State :=
  { beforeFlagA [.code 0] with fbOwner := [(0, .dec), (1, .consumer)], acquires := [.ok 2],
                               inputs := [.command 0x207E#16] }

/-- Its owners: handle 0 the decoder's, handle 1 the consumer's, every other the pool's. -/
theorem delivering_owner {h : Nat} (h0 : h ≠ 0) (h1 : h ≠ 1) : frameOwner delivering h = none :=
  (if_neg h0.symm).trans (if_neg h1.symm)

/-- That state meets the invariant. Also for `CountersFitLenW`. -/
theorem witness_MachineInv : MachineInv delivering where
  cfgWf := by decide
  fbWf := by decide
  obWf := by decide
  fbOwnerSorted := by decide
  obOwnerSorted := by decide
  lenCap := by decide
  oneFlag := by decide
  discardFull := by decide
  stagedFits := by decide
  stagingSize := by decide
  ovfFull := by decide
  bufOwned := by decide
  soleBuffer := by
    intro h hh
    by_contra hne
    by_cases h1 : h = 1
    · subst h1; revert hh; decide
    · rw [delivering_owner hne h1] at hh
      simp at hh
  handleFits := by
    intro h w hh
    by_cases hne : h = 0
    · subst hne; decide
    · by_cases h1 : h = 1
      · subst h1; decide
      · rw [delivering_owner hne h1] at hh
        simp at hh
  outHandleFits := by
    intro o w ho
    have : outOwner delivering o = none := rfl
    rw [this] at ho
    simp at ho
  noEncBuffer := by
    intro o ho
    have : outOwner delivering o = none := rfl
    rw [this] at ho
    simp at ho
  hungHealthy := by decide
  tagSet := by decide
  assembled := fun _ => ⟨frameA ++ [0x18#8, 0x3E#8], by decide, by decide⟩

theorem witness_StepKeepsInvariant : MachineInv delivering ∧ ∃ t, step delivering = .next t :=
  ⟨witness_MachineInv, _, rfl⟩

theorem witness_DeliveredFrameHasGoodResidue : MachineInv delivering ∧
    ∃ t, exec (.decByte 0x7E#8) delivering = .next t ∧ deliveries t ≠ deliveries delivering :=
  ⟨witness_MachineInv, _, rfl, by decide⟩

/-- Also for `ResponseCodes`, beside `witness_OneResponsePerCommand`. -/
theorem witness_CountersFitLenW : after (exec .encFrame (staged frameA))
    (fun t => (t.wait, t.trace.head?)) =
    some (none, some (.response (.encResult .ok 12 (some 0)))) := by decide

/-- Also for `ConfigurationNeverChanges`. -/
theorem witness_FlagExclusivity : ¬ (start.decEsc = true ∧ start.decDiscard = true) ∧
    ∃ t, step { start with inputs := [.command 0x207D#16] } = .next t := ⟨by decide, _, rfl⟩

/-- A pool that hands back the buffer the consumer has just accepted, and a command beside a buffer of
the consumer's. -/
theorem witness_PoolDutyIsPremise :
    Ready { beforeFlagA [.code 0] with acquires := [.ok 0] } ∧
    WellFormedFrame { beforeFlagA [.code 0] with acquires := [.ok 0] } ∧
    answeredCode (consumerAnswer { beforeFlagA [.code 0] with acquires := [.ok 0] }) = some 0 ∧
    poolAnswer (askingPool { beforeFlagA [.code 0] with acquires := [.ok 0] }) = .ok 0 ∧
    poolMayGive (askingPool { beforeFlagA [.code 0] with acquires := [.ok 0] }) 0 = false ∧
    MachineInv delivering ∧ frameOwner delivering 1 = some .consumer ∧
    ∃ t, exec (.decByte 0x7E#8) delivering = .next t :=
  ⟨by decide, by decide, by decide, by decide, by decide, witness_MachineInv, by decide, _, rfl⟩

/-- Buffers of the consumer's, of the host's, and of neither; the last byte of a frame buffer. -/
theorem witness_PartiesUseOnlyTheirBuffers :
    frameOwner { start with fbOwner := [(0, .dec), (1, .consumer)] } 1 = some .consumer ∧
    23 < start.cfg.bufSize ∧ frameOwner start 0 ≠ some .consumer ∧
    outOwner { start with obOwner := [(0, .host)] } 0 = some .host ∧
    outOwner start 0 ≠ some .host := by decide

end Sys2Proof.Tests
end

section
/-!
PROOFS. The machine's invariant: one lemma per operation that keeps it, the states between two frame
buffers, in which it holds but for the decoder's buffer, and the step theorem.
-/
namespace Sys2Proof.Machine

variable {s t : State}

/-! ## Updates the invariant does not look at -/

theorem inv_emit (hs : MachineInv s) (e : Event) : MachineInv (emit s e) := { hs with }

theorem inv_respond (hs : MachineInv s) (r : Response) : MachineInv (respond s r) :=
  inv_emit hs (.response r)

theorem inv_inputTaken (hs : MachineInv s) : MachineInv (inputTaken s) := { hs with }

theorem inv_decPend (hs : MachineInv s) (c : Code) : MachineInv { s with decPend := c } :=
  { hs with }

theorem inv_consumerAnswered (hs : MachineInv s) : MachineInv (consumerAnswered s) := by
  unfold consumerAnswered
  split <;> exact { hs with }

theorem inv_poolAnswered (hs : MachineInv s) : MachineInv (poolAnswered s) := by
  unfold poolAnswered
  split <;> exact { hs with }

theorem inv_allocatorAnswered (hs : MachineInv s) : MachineInv (allocatorAnswered s) := by
  unfold allocatorAnswered
  split <;> exact { hs with }

/-! ## Faults and hangs of a ready core -/

theorem inv_raiseFault (hs : MachineInv s) (hr : Ready s) (c : FaultCode) :
    MachineInv (raiseFault s c) :=
  inv_respond (s := { s with fault := c })
    { hs with
      bufOwned := fun _ _ => hs.bufOwned (by simp [hr.2]) (by simp [hr.1])
      hungHealthy := fun hw => absurd hr.1 hw } _

theorem inv_hang (hs : MachineInv s) (hr : Ready s) (w : Waiting) :
    MachineInv { s with wait := some w } :=
  { hs with
    bufOwned := fun hf _ => hs.bufOwned hf (by simp [hr.1])
    hungHealthy := fun _ => hr.2 }

theorem inv_deliver (hs : MachineInv s) (hr : Ready s) (h n : Nat) :
    MachineInv (deliver s h n) := by
  have ht := inv_emit (inv_consumerAnswered hs)
    (.deliver s.cfg.instId h n (seenAtDelivery s h n) (consumerAnswer s))
  unfold deliver
  split
  · exact ht
  · exact ht
  · exact inv_hang ht (by simpa [Ready] using hr) .consumer

/-! ## The decoder's registers and buffer -/

theorem inv_setEsc (hs : MachineInv s) {v : Bool} (hv : v = true → s.decDiscard = false) :
    MachineInv (setEsc s v) :=
  { hs with oneFlag := fun ⟨he, hd⟩ => by simp [hv he] at hd }

/-- Discard mode begins at a full buffer and outside an escape (41_decoder.md R152). -/
theorem inv_setDiscard (hs : MachineInv s) (he : s.decEsc = false) (hl : s.decLen = s.cfg.cap) :
    MachineInv (setDiscard s true) :=
  { hs with
    oneFlag := fun h => by simp [he] at h
    discardFull := fun _ => hl }

theorem tagOffset_lt_bufSize {p : Params} (hp : p.wf) : tagOffset < p.bufSize := by
  have := hp.1
  simp only [tagOffset, hdrRes]
  omega

theorem fbRead_tag_afterDecReset (s : State) (h : tagOffset < s.cfg.bufSize) :
    fbRead (afterDecReset s) s.decBuf tagOffset = some s.cfg.tagInit :=
  fbRead_write_self s s.decBuf tagOffset s.cfg.tagInit h

theorem inv_afterDecReset (hs : MachineInv s) : MachineInv (afterDecReset s) :=
  { hs with
    fbWf := Memory.write_wf hs.fbWf _ _
    lenCap := Nat.zero_le _
    oneFlag := fun h => nomatch h.1
    discardFull := nofun
    tagSet := fun _ => fbRead_tag_afterDecReset s (tagOffset_lt_bufSize hs.cfgWf)
    assembled := fun _ => ⟨[], rfl, rfl⟩ }

theorem inv_resetAndAck (hs : MachineInv s) (h : resetAndAck s = .next t) : MachineInv t := by
  obtain ⟨-, rfl⟩ := resetAndAck_cases h
  exact inv_respond (inv_afterDecReset hs) _

/-- The appended byte stands behind the bytes assembled before it (20_memory.md R64). -/
theorem fbBytes_afterAppend (s : State) (b : Byte) (ho : hdrRes + s.decLen < s.cfg.bufSize) :
    fbBytes (afterAppend s b) s.decBuf hdrRes (s.decLen + 1) =
      fbBytes s s.decBuf hdrRes s.decLen ++ [some b] := by
  have hnew : fbRead (afterAppend s b) s.decBuf (hdrRes + s.decLen) = some b :=
    fbRead_write_self s _ _ b ho
  have hold : fbBytes (afterAppend s b) s.decBuf hdrRes s.decLen =
      fbBytes s s.decBuf hdrRes s.decLen :=
    List.map_congr_left fun i hi =>
      fbRead_write_ne s b ho (.inr (by have := List.mem_range.mp hi; omega))
  rw [← hold, ← hnew]
  simp [fbBytes, List.range_succ]

theorem crc16_append_one (l : List Byte) (b : Byte) :
    crc16 (l ++ [b]) = crc16Update (crc16 l) b := by
  simp [crc16, crc16From]

theorem inv_afterAppend (hs : MachineInv s) (b : Byte) (ho : hdrRes + s.decLen < s.cfg.bufSize) :
    MachineInv (afterAppend s b) where
  __ := hs
  fbWf := Memory.write_wf hs.fbWf _ _
  lenCap := by simp only [afterAppend, Params.cap]; omega
  discardFull := fun hd => by
    have := hs.discardFull hd
    simp only [Params.cap] at this
    omega
  tagSet := fun hd =>
    (fbRead_write_ne s b ho (.inr (by simp only [tagOffset, hdrRes]; omega))).trans (hs.tagSet hd)
  assembled := fun hd => by
    obtain ⟨l, hl, hc⟩ := hs.assembled hd
    refine ⟨l ++ [b], (fbBytes_afterAppend s b ho).trans ?_, ?_⟩
    · simp [hl]
    · rw [crc16_append_one, ← hc]; rfl

theorem inv_storeByte (hs : MachineInv s) (he : s.decEsc = false) {b : Byte}
    (h : storeByte s b = .next t) : MachineInv t := by
  obtain ⟨hl, rfl⟩ | ⟨-, ho, rfl⟩ := storeByte_cases h
  · exact inv_respond (inv_setDiscard hs he hl) _
  · exact inv_respond (inv_afterAppend hs b ho) _

/-! ## Between two buffers -/

/-- A healthy core that asks the pool: the decoder owns no buffer, and but for that the invariant
holds, so that it would hold if the acquisition failed. -/
structure BetweenBuffers (s : State) : Prop where
  ready : Ready s
  noBuffer : ∀ h, frameOwner s h ≠ some .dec
  invIfFailed : MachineInv { s with fault := .allocFail }

theorem betweenBuffers_poolAsked (hs : BetweenBuffers s) (a : AllocAnswer) :
    BetweenBuffers (emit (poolAnswered s) (.acquire a)) where
  ready := by simpa [Ready] using hs.ready
  noBuffer h := by
    rw [frameOwner_congr (s := s) (by simp)]
    exact hs.noBuffer h
  invIfFailed := by
    unfold poolAnswered
    split <;> exact { hs.invIfFailed with }

theorem handOver_eq (s : State) (h : Nat) (a : ConsumerAnswer) :
    handOver s h a = { s with fbOwner := (handOver s h a).fbOwner } := by
  cases a <;> rfl

/-- The decoder gives its only buffer away (20_memory.md R77). -/
theorem betweenBuffers_handOver (hs : MachineInv s) (hr : Ready s) (a : ConsumerAnswer) :
    BetweenBuffers (handOver s s.decBuf a) := by
  have hown := fun k => frameOwner_handOver s s.decBuf k a
  have hno : ∀ k, frameOwner (handOver s s.decBuf a) k ≠ some .dec := by
    intro k
    rw [hown]
    split
    · exact acceptedOwner_ne_dec a
    · exact fun hk => absurd (hs.soleBuffer k hk) ‹_›
  have hfits : ∀ k w, frameOwner (handOver s s.decBuf a) k = some w → k < 2 ^ s.cfg.bufIdW := by
    intro k w hk
    rw [hown] at hk
    split at hk
    · subst_vars
      exact hs.handleFits _ _ (hs.bufOwned (by simp [hr.2]) (by simp [hr.1]))
    · exact hs.handleFits k w hk
  have hsort := handOver_sorted hs.fbOwnerSorted s.decBuf a
  rw [handOver_eq] at hno hfits ⊢
  exact
    { ready := hr
      noBuffer := hno
      invIfFailed :=
        { hs with
          fbOwnerSorted := hsort
          bufOwned := fun hf => absurd rfl hf
          soleBuffer := fun k hk => absurd hk (hno k)
          handleFits := hfits
          hungHealthy := fun hw => absurd hr.1 hw
          tagSet := fun hk => absurd hk (hno _)
          assembled := fun hk => absurd hk (hno _) } }

theorem betweenBuffers_askingPool (hs : MachineInv s) (hr : Ready s)
    (ha : consumerAnswer s ≠ .silent) : BetweenBuffers (askingPool s) := by
  have hb := betweenBuffers_handOver (inv_deliver hs hr s.decBuf (s.decLen - 2))
    (by simpa [Ready, ha] using hr) (consumerAnswer s)
  rwa [deliver_decBuf] at hb

/-- A hardware reset leaves every frame buffer with the pool (70_reset_and_hazards.md R271). -/
theorem betweenBuffers_powerOn (hs : MachineInv s) : BetweenBuffers (powerOn s) where
  ready := ⟨rfl, rfl⟩
  noBuffer _ := nofun
  invIfFailed :=
    { hs with
      fbWf := .nil
      fbOwnerSorted := .nil
      stagedFits := Nat.zero_le _
      ovfFull := nofun
      bufOwned := fun hf => absurd rfl hf
      soleBuffer := fun _ => nofun
      handleFits := fun _ _ => nofun
      hungHealthy := fun hw => absurd rfl hw
      tagSet := nofun
      assembled := nofun }

theorem inv_of_poolFailed (hs : BetweenBuffers s) :
    MachineInv { emit (poolAnswered s) (.acquire .fail) with fault := .allocFail } :=
  (betweenBuffers_poolAsked hs .fail).invIfFailed

theorem inv_of_poolSilent (hs : BetweenBuffers s) :
    MachineInv { emit (poolAnswered s) (.acquire .silent) with wait := some .pool } :=
  let hb := betweenBuffers_poolAsked hs .silent
  { hb.invIfFailed with
    bufOwned := fun _ hw => absurd rfl hw
    hungHealthy := fun _ => hb.ready.2 }

/-- A fresh buffer is the decoder's only one, and the reset procedure makes it an empty frame. -/
theorem inv_of_freshBuffer (hs : BetweenBuffers s) {m : Memory} (hm : m.wf) {h : Nat}
    (hh : h < 2 ^ s.cfg.bufIdW) :
    MachineInv (afterDecReset { setFrameOwner s h .dec with fb := m, decBuf := h }) :=
  { hs.invIfFailed with
    fbWf := Memory.write_wf hm _ _
    fbOwnerSorted := Assoc.sorted_insert hs.invIfFailed.fbOwnerSorted _ _
    lenCap := Nat.zero_le _
    oneFlag := fun hd => nomatch hd.1
    discardFull := nofun
    bufOwned := fun _ _ => frameOwner_set_self s h .dec
    soleBuffer := fun k hk => by
      by_contra hne
      exact hs.noBuffer k ((frameOwner_set_ne s .dec hne).symm.trans hk)
    handleFits := fun k w hk => by
      by_cases hkh : k = h
      · exact hkh ▸ hh
      · exact hs.invIfFailed.handleFits k w ((frameOwner_set_ne s .dec hkh).symm.trans hk)
    hungHealthy := fun _ => hs.ready.2
    tagSet := fun _ => fbRead_tag_afterDecReset _ (tagOffset_lt_bufSize hs.invIfFailed.cfgWf)
    assembled := fun _ => ⟨[], rfl, rfl⟩ }

theorem inv_of_poolGranted (hs : BetweenBuffers s) {h : Nat} (hg : poolMayGive s h = true) :
    MachineInv (afterDecReset { afterAcquire s h with decBuf := h }) := by
  obtain ⟨hfit, -⟩ := (poolMayGive_iff s h).mp hg
  exact inv_of_freshBuffer (betweenBuffers_poolAsked hs (.ok h))
    (Memory.forget_wf hs.invIfFailed.fbWf _ _) (by simpa using hfit)

theorem inv_deliverFrame (hs : MachineInv s) (hr : Ready s) (h : deliverFrame s = .next t) :
    MachineInv t := by
  obtain ⟨k, hc, -, hg, -, rfl⟩ | ⟨hc, -, rfl⟩ | ⟨hc, -, rfl⟩ | ⟨c, -, -, -, rfl⟩ | ⟨-, rfl⟩ :=
    deliverFrame_cases h
  · have hb := betweenBuffers_askingPool hs hr (answeredCode_ne_silent hc)
    exact inv_respond (inv_of_poolGranted hb hg) _
  · have hb := betweenBuffers_askingPool hs hr (answeredCode_ne_silent hc)
    exact inv_respond (inv_of_poolFailed hb) _
  · exact inv_of_poolSilent (betweenBuffers_askingPool hs hr (answeredCode_ne_silent hc))
  · exact inv_respond (inv_afterDecReset (inv_decPend (inv_deliver hs hr _ _) _)) _
  · exact inv_deliver hs hr _ _

theorem inv_consumeByte (hs : MachineInv s) (hr : Ready s) {b : Byte}
    (h : consumeByte s b = .next t) : MachineInv t := by
  obtain ⟨-, -, -, rfl⟩ | ⟨-, -, h⟩ | ⟨-, -, rfl⟩ | ⟨-, -, -, h⟩ | ⟨-, hd, -, rfl⟩ |
    ⟨-, -, -, he, h⟩ := consumeByte_cases h
  · exact inv_respond (inv_afterDecReset hs) _
  · exact inv_deliverFrame hs hr h
  · exact inv_respond hs _
  · exact inv_storeByte (inv_setEsc hs (v := false) nofun) rfl h
  · exact inv_respond (inv_setEsc hs fun _ => hd) _
  · exact inv_storeByte hs he h

/-! ## The encoder -/

theorem inv_clearStaging (hs : MachineInv s) : MachineInv (clearStaging s) :=
  { hs with
    stagedFits := Nat.zero_le _
    ovfFull := nofun }

theorem inv_encLoad (hs : MachineInv s) (hr : Ready s) {b : Byte}
    (h : exec (.encLoad b) s = .next t) : MachineInv t := by
  rw [exec_encLoad hr] at h
  split at h
  · rename_i hlt
    cases h
    exact inv_respond (s := { s with encIn := s.encIn.set s.encN b, encN := s.encN + 1 })
      { hs with
        stagedFits := hlt
        stagingSize := by simpa using hs.stagingSize
        ovfFull := fun ho => absurd (hs.ovfFull ho) (by omega) } _
  · cases h
    exact inv_respond (s := setOvf s true)
      { hs with ovfFull := fun _ => by have := hs.stagedFits; simp only [setOvf]; omega } _

/-- An output buffer goes to the host or back to its allocator (10_state.md R46). -/
theorem inv_outputSide (hs : MachineInv s) {ob : Memory} {owners : List (Nat × OutOwner)} {o : Nat}
    (hob : ob.wf) (hsort : Assoc.Sorted owners) (ho : o < 2 ^ s.cfg.outIdW)
    (hown : Assoc.lookup owners o ≠ some .enc)
    (hkeep : ∀ k, k ≠ o → Assoc.lookup owners k = outOwner s k) :
    MachineInv { s with ob := ob, obOwner := owners } :=
  { hs with
    obWf := hob
    obOwnerSorted := hsort
    outHandleFits := fun k w hk => by
      by_cases hko : k = o
      · exact hko ▸ ho
      · exact hs.outHandleFits k w ((hkeep k hko).symm.trans hk)
    noEncBuffer := fun k hk => by
      by_cases hko : k = o
      · exact hown (hko ▸ hk)
      · exact hs.noEncBuffer k ((hkeep k hko).symm.trans hk) }

theorem inv_messageTooLarge (hs : MachineInv s) {m : Memory} (hm : m.wf) {o : Nat}
    (ho : o < 2 ^ s.cfg.outIdW) :
    MachineInv (messageTooLarge { setOutOwner s o .enc with ob := m } o) := by
  have hsort := Assoc.sorted_insert hs.obOwnerSorted o OutOwner.enc
  refine inv_respond (inv_emit (inv_outputSide hs hm (Assoc.sorted_removeRange hsort o 1) ho ?_ ?_) _) _
  · simp [Assoc.lookup_remove_one]
  · intro k hk
    rw [Assoc.lookup_remove_one, if_neg hk]
    exact Assoc.lookup_insert_ne _ _ hk

theorem inv_wireFrameReady (hs : MachineInv s) {m : Memory} (hm : m.wf) {o : Nat}
    (ho : o < 2 ^ s.cfg.outIdW) (len : Nat) :
    MachineInv (wireFrameReady { setOutOwner s o .enc with ob := m } o len) := by
  have hsort := Assoc.sorted_insert hs.obOwnerSorted o OutOwner.enc
  refine inv_respond (inv_outputSide hs hm (Assoc.sorted_insert hsort o .host) ho ?_ ?_) _
  · simp
  · intro k hk
    rw [Assoc.lookup_insert_ne _ _ hk]
    exact Assoc.lookup_insert_ne _ _ hk

theorem inv_emitFrame (hs : MachineInv s) {m : Memory} (hm : m.wf) {o : Nat}
    (ho : o < 2 ^ s.cfg.outIdW) (ovf : Bool) (frame : List Byte) :
    MachineInv (emitFrame { setOutOwner s o .enc with ob := m } o ovf frame) := by
  have hout := emitBytes_wf s.cfg o (bytesToEmit ovf frame) { mem := m, k := 0, full := false } hm
  unfold emitFrame
  dsimp only
  split
  · exact inv_messageTooLarge hs hout ho
  · exact inv_wireFrameReady hs hout ho _

theorem inv_encodeFrame (hs : MachineInv s) (hr : Ready s) {ovf : Bool} {n : Nat}
    {frame : List Byte} (h : encodeFrame s ovf n frame = .next t) : MachineInv t := by
  have ha := fun a => inv_emit (inv_allocatorAnswered hs) (.outAlloc a)
  have hra : ∀ a, Ready (emit (allocatorAnswered s) (.outAlloc a)) := by simpa [Ready] using hr
  obtain ⟨-, -, rfl⟩ | ⟨-, ⟨o, -, hg, rfl⟩ | ⟨-, rfl⟩ | ⟨-, rfl⟩⟩ := encodeFrame_cases h
  · exact inv_respond hs _
  · obtain ⟨ho, -⟩ := (allocatorMayGive_iff s o).mp hg
    exact inv_emitFrame (ha (.ok o)) (Memory.forget_wf hs.obWf _ _) (by simpa using ho) ovf frame
  · exact inv_raiseFault (ha .fail) (hra _) _
  · exact inv_hang (ha .silent) (hra _) _

/-! ## Commands -/

theorem inv_exec (hs : MachineInv s) {i : Instr} (h : exec i s = .next t) : MachineInv t := by
  obtain hr | ⟨-, -, rfl⟩ := exec_next h
  · cases i with
    | decReset => exact inv_resetAndAck hs (exec_decReset hr ▸ h)
    | decByte b => exact inv_consumeByte hs hr (exec_decByte hr b ▸ h)
    | decEnd =>
      rw [exec_decEnd hr] at h
      cases h
      exact inv_respond (inv_decPend hs 0) _
    | encClear =>
      rw [exec_encClear hr] at h
      cases h
      exact inv_respond (inv_clearStaging hs) _
    | encLoad b => exact inv_encLoad hs hr h
    | encFrame => exact inv_encodeFrame (inv_clearStaging hs) hr (exec_encFrame hr ▸ h)
  · exact inv_respond hs _

theorem inv_runWord (hs : MachineInv s) {w : Word} (h : runWord w s = .next t) :
    MachineInv t := by
  unfold runWord at h
  split at h
  · exact inv_exec hs h
  · obtain ⟨hr, h⟩ | ⟨-, -, rfl⟩ := runCommand_cases h
    · cases h
      exact inv_raiseFault hs hr _
    · exact inv_respond hs _

/-! ## The other parties -/

theorem inv_hardwareReset (hs : MachineInv s) (h : hardwareReset s = .next t) : MachineInv t := by
  have hb := betweenBuffers_powerOn hs
  unfold hardwareReset at h
  rw [acquire_eq] at h
  cases hp : poolAnswer (powerOn s) with
  | ok k =>
    by_cases hg : poolMayGive (powerOn s) k = true
    · simp only [hp, if_pos hg] at h
      obtain ⟨-, rfl⟩ := decReset_cases h
      exact inv_of_poolGranted hb hg
    · simp [hp, hg] at h
  | fail =>
    simp only [hp] at h
    cases h
    exact inv_of_poolFailed hb
  | silent =>
    simp only [hp] at h
    cases h
    exact inv_of_poolSilent hb

/-- A consumer's buffer is not the one being filled (20_memory.md R76). -/
theorem inv_consumerWrite (hs : MachineInv s) {h off : Nat} {v : Byte}
    (hw : consumerWrite h off v s = .next t) : MachineInv t := by
  unfold consumerWrite at hw
  split at hw
  · rename_i hown
    obtain ⟨ho, rfl⟩ := bufWrite_cases hw
    have hread : frameOwner s s.decBuf = some .dec → ∀ k,
        fbRead { s with fb := s.fb.write (fbAddr s.cfg h off) v } s.decBuf k =
          fbRead s s.decBuf k := by
      intro hd k
      refine fbRead_write_ne s v ho (.inl ?_)
      rintro rfl
      simp [hd] at hown
    exact
      { hs with
        fbWf := Memory.write_wf hs.fbWf _ _
        tagSet := fun hd => (hread hd _).trans (hs.tagSet hd)
        assembled := fun hd => by
          obtain ⟨l, hl, hc⟩ := hs.assembled hd
          exact ⟨l, (List.map_congr_left fun i _ => hread hd _).trans hl, hc⟩ }
  · simp at hw

theorem inv_consumerRelease (hs : MachineInv s) {h : Nat} (hw : consumerRelease h s = .next t) :
    MachineInv t := by
  unfold consumerRelease at hw
  split at hw
  · rename_i hown
    cases hw
    have hkept : ∀ k w, frameOwner (poolTakesBack s h) k = some w → frameOwner s k = some w := by
      intro k w hk
      rw [frameOwner_poolTakesBack] at hk
      split at hk
      · simp at hk
      · exact hk
    have hdec : ∀ k, frameOwner s k = some .dec → frameOwner (poolTakesBack s h) k = some .dec := by
      intro k hk
      rw [frameOwner_poolTakesBack, if_neg, hk]
      rintro rfl
      simp [hk] at hown
    exact
      { hs with
        fbOwnerSorted := Assoc.sorted_removeRange hs.fbOwnerSorted _ _
        bufOwned := fun hf hw => hdec _ (hs.bufOwned hf hw)
        soleBuffer := fun k hk => hs.soleBuffer k (hkept k _ hk)
        handleFits := fun k w hk => hs.handleFits k w (hkept k w hk)
        tagSet := fun hd => hs.tagSet (hkept _ _ hd)
        assembled := fun hd => hs.assembled (hkept _ _ hd) }
  · simp at hw

theorem inv_hostRelease (hs : MachineInv s) {o : Nat} (hw : hostRelease o s = .next t) :
    MachineInv t := by
  unfold hostRelease at hw
  split at hw
  · rename_i hown
    cases hw
    exact inv_outputSide hs hs.obWf (Assoc.sorted_removeRange hs.obOwnerSorted o 1)
      (hs.outHandleFits o _ hown) (by simp [Assoc.lookup_remove_one])
      fun k hk => (Assoc.lookup_remove_one _ o k).trans (if_neg hk)
  · simp at hw

theorem inv_act (hs : MachineInv s) {a : Action} (h : act a s = .next t) : MachineInv t := by
  cases a with
  | hardwareReset => exact inv_hardwareReset hs h
  | consumerWrite k off v => exact inv_consumerWrite hs h
  | consumerRelease k => exact inv_consumerRelease hs h
  | hostRelease o => exact inv_hostRelease hs h

/-- Settles O54, by the kinds of input a step can meet. -/
theorem stepKeepsInvariant : Obligations.StepKeepsInvariant := by
  unfold Obligations.StepKeepsInvariant
  intro s t hs h
  unfold step at h
  split at h
  · cases h
    exact hs
  · exact inv_runWord (inv_inputTaken hs) h
  · exact inv_act (inv_inputTaken hs) h

end Sys2Proof.Machine
end

section
/-!
PROOFS. What commands do not read: from two states that differ only there they answer in lockstep. The
staging past `ENC.n` (10_state.md R42) and frame memory (20_memory.md R74).
-/
namespace Sys2Proof.Machine

/-! ## Lockstep -/

/-- Both results are next states that `R` relates, or the same fault, or the same refusal. -/
inductive Lockstep (R : State → State → Prop) : Result → Result → Prop
  | next {t u : State} (h : R t u) : Lockstep R (.next t) (.next u)
  | fault (e : Fault) : Lockstep R (.fault e) (.fault e)
  | refused (e : Refusal) : Lockstep R (.refused e) (.refused e)

section
variable {R : State → State → Prop} {s u : State}

theorem Lockstep.exists_next {r r' : Result} (h : Lockstep R r r') {t : State} (ht : r = .next t) :
    ∃ u, r' = .next u ∧ R t u := by
  cases h with
  | next hR => cases ht; exact ⟨_, rfl, hR⟩
  | fault e => cases ht
  | refused e => cases ht

theorem Lockstep.andThen {r r' : Result} {k : State → Result} (h : Lockstep R r r')
    (hk : ∀ t u, R t u → Lockstep R (k t) (k u)) : Lockstep R (andThen r k) (andThen r' k) := by
  cases h with
  | next hR => exact hk _ _ hR
  | fault e => exact .fault e
  | refused e => exact .refused e

/-- While the core is not ready, the response or the refusal is the same for every command. -/
theorem exec_lockstep {i : Instr} (hw : u.wait = s.wait) (hf : u.fault = s.fault)
    (hresp : ∀ r, R (respond s r) (respond u r))
    (hready : Ready s → Lockstep R (exec i s) (exec i u)) : Lockstep R (exec i s) (exec i u) := by
  by_cases hws : s.wait = none
  · by_cases hfs : s.fault = .none
    · exact hready ⟨hws, hfs⟩
    · rw [exec_faulted hws hfs, exec_faulted (hw ▸ hws) (hf ▸ hfs), hf]
      exact .next (hresp _)
  · rw [exec_hung hws, exec_hung (hw ▸ hws)]
    exact .refused _

/-- What `ENC_FRAME` reads beside the frame: `HDR_LEN` and the allocator's answer. -/
theorem encodeFrame_lockstep {ovf : Bool} {n : Nat} {frame : List Byte}
    (hc : u.cfg.hdrLen = s.cfg.hdrLen) (ha : allocatorAnswer u = allocatorAnswer s)
    (hg : ∀ o, allocatorMayGive u o = allocatorMayGive s o)
    (hinval : ∀ r, R (respond s r) (respond u r))
    (hgranted : ∀ o, R (emitFrame (afterOutAlloc s o) o ovf frame)
      (emitFrame (afterOutAlloc u o) o ovf frame))
    (hfailed : R (raiseFault (emit (allocatorAnswered s) (.outAlloc .fail)) .allocFail)
      (raiseFault (emit (allocatorAnswered u) (.outAlloc .fail)) .allocFail))
    (hhung : R { emit (allocatorAnswered s) (.outAlloc .silent) with wait := some .outAllocator }
      { emit (allocatorAnswered u) (.outAlloc .silent) with wait := some .outAllocator }) :
    Lockstep R (encodeFrame s ovf n frame) (encodeFrame u ovf n frame) := by
  unfold encodeFrame
  rw [hc, outAlloc_eq, outAlloc_eq, ha]
  split
  · exact .next (hinval _)
  · cases allocatorAnswer s with
    | ok o =>
      simp only [hg]
      by_cases ho : allocatorMayGive s o = true
      · simpa only [ho, if_true] using .next (hgranted o)
      · simpa only [ho] using .refused _
    | fail => exact .next hfailed
    | silent => exact .next hhung

end

/-! ## The staging past ENC.n -/

/-- The second state is the first with the staged bytes `l`. -/
def Restaged (l : List Byte) (t u : State) : Prop := u = { t with encIn := l }

theorem Restaged.allocatorAsked {l : List Byte} {s u : State} (h : Restaged l s u)
    (a : AllocAnswer) : Restaged l (emit (allocatorAnswered s) (.outAlloc a))
      (emit (allocatorAnswered u) (.outAlloc a)) := by
  subst h
  cases hq : s.outAllocs <;> simp [Restaged, allocatorAnswered, emit, hq]

theorem Restaged.emitFrame {l : List Byte} {s u : State} (h : Restaged l s u) (o : Nat)
    (ovf : Bool) (frame : List Byte) :
    Restaged l (emitFrame s o ovf frame) (emitFrame u o ovf frame) := by
  subst h
  unfold Machine.emitFrame
  dsimp only
  split <;> rfl

theorem Restaged.afterOutAlloc {l : List Byte} {s u : State} (h : Restaged l s u) (o : Nat) :
    Restaged l (afterOutAlloc s o) (afterOutAlloc u o) := by
  have ha := h.allocatorAsked (.ok o)
  subst h
  unfold Machine.afterOutAlloc
  rw [ha]
  rfl

theorem encFrame_restaged {s : State} {l : List Byte} (hl : l.take s.encN = s.encIn.take s.encN) :
    Lockstep (Restaged l) (exec .encFrame s) (exec .encFrame { s with encIn := l }) := by
  have hframe : stagedFrame { s with encIn := l } = stagedFrame s := hl
  have hc : Restaged l (clearStaging s) (clearStaging { s with encIn := l }) := rfl
  refine exec_lockstep rfl rfl (fun _ => rfl) fun hr => ?_
  rw [exec_encFrame hr, exec_encFrame (s := { s with encIn := l }) hr, hframe]
  refine encodeFrame_lockstep rfl rfl (fun _ => rfl) (fun _ => rfl)
    (fun o => (hc.afterOutAlloc o).emitFrame o _ _) ?_ ?_
  · rw [hc.allocatorAsked .fail]
    rfl
  · rw [hc.allocatorAsked .silent]
    rfl

/-- Settles O50: only the first `ENC.n` staged bytes reach the encoding. -/
theorem stagingPastEndNeverRead : Obligations.StagingPastEndNeverRead := by
  unfold Obligations.StagingPastEndNeverRead
  intro s t l hl h
  obtain ⟨u, hu, rfl⟩ := (encFrame_restaged hl).exists_next h
  exact hu

/-! ## Frame memory -/

/-- The second state is the first but for the frame memory and what the trace shows of it: the responses
are the same. -/
inductive SameButFrames (t : State) : State → Prop
  | mk (m : Memory) (l : List Event) (hl : l.filter isResponse = responses t) :
    SameButFrames t { t with fb := m, trace := l }

namespace SameButFrames

variable {s u : State}

theorem responses_eq (h : SameButFrames s u) : responses u = responses s := by
  obtain ⟨m, l, hl⟩ := h
  exact hl

theorem cfg_eq (h : SameButFrames s u) : u.cfg = s.cfg := by cases h; rfl

theorem sameStaging (h : SameButFrames s u) : SameStaging s u := by
  cases h; exact ⟨rfl, rfl, rfl⟩

theorem decBuf_eq (h : SameButFrames s u) : u.decBuf = s.decBuf := by cases h; rfl

theorem consumerAnswer_eq (h : SameButFrames s u) : consumerAnswer u = consumerAnswer s := by
  cases h; rfl

theorem poolAnswer_eq (h : SameButFrames s u) : poolAnswer u = poolAnswer s := by cases h; rfl

theorem poolMayGive_eq (h : SameButFrames s u) (b : Nat) : poolMayGive u b = poolMayGive s b := by
  cases h; rfl

theorem emit (h : SameButFrames s u) (e : Event) :
    SameButFrames (emit s e) (emit u e) := by
  obtain ⟨m, l, hl⟩ := h
  exact .mk m (e :: l) (by simp only [responses, emit_trace, List.filter_cons] at hl ⊢; rw [hl])

theorem respond (h : SameButFrames s u) (r : Response) :
    SameButFrames (respond s r) (respond u r) :=
  h.emit (.response r)

/-- An update that leaves the trace alone and whose result depends on neither frame memory nor trace,
but for the frame memory it leaves. -/
theorem update {f : State → State} (h : SameButFrames s u) (htrace : (f s).trace = s.trace)
    (hf : ∀ m l, ∃ m', f { s with fb := m, trace := l } = { f s with fb := m', trace := l }) :
    SameButFrames (f s) (f u) := by
  obtain ⟨m, l, hl⟩ := h
  obtain ⟨m', hm'⟩ := hf m l
  rw [hm']
  exact .mk m' l (hl.trans (responses_congr htrace).symm)

theorem raiseFault (h : SameButFrames s u) (c : FaultCode) :
    SameButFrames (raiseFault s c) (raiseFault u c) :=
  (h.update (f := fun v => { v with fault := c }) rfl fun _ _ => ⟨_, rfl⟩).respond (.faulted c)

theorem hang (h : SameButFrames s u) (w : Waiting) :
    SameButFrames { s with wait := some w } { u with wait := some w } :=
  h.update (f := fun v => { v with wait := some w }) rfl fun _ _ => ⟨_, rfl⟩

/-! ### The collaborators -/

theorem consumerAnswered (h : SameButFrames s u) :
    SameButFrames (consumerAnswered s) (consumerAnswered u) := by
  refine h.update (consumerAnswered_trace s) fun m l => ⟨m, ?_⟩
  cases hq : s.codes <;> simp [Machine.consumerAnswered, hq]

theorem poolAnswered (h : SameButFrames s u) :
    SameButFrames (poolAnswered s) (poolAnswered u) := by
  refine h.update (poolAnswered_trace s) fun m l => ⟨m, ?_⟩
  cases hq : s.acquires <;> simp [Machine.poolAnswered, hq]

theorem allocatorAnswered (h : SameButFrames s u) :
    SameButFrames (allocatorAnswered s) (allocatorAnswered u) := by
  refine h.update (allocatorAnswered_trace s) fun m l => ⟨m, ?_⟩
  cases hq : s.outAllocs <;> simp [Machine.allocatorAnswered, hq]

/-- The two deliveries may show different bytes; a delivery is no response. -/
theorem delivered (h : SameButFrames s u) (c b n : Nat) (seen seen' : List (Option Byte))
    (a : ConsumerAnswer) :
    SameButFrames (Machine.emit s (.deliver c b n seen a))
      (Machine.emit u (.deliver c b n seen' a)) := by
  obtain ⟨m, l, hl⟩ := h
  exact .mk m (_ :: l) hl

theorem deliver (h : SameButFrames s u) (b n : Nat) :
    SameButFrames (deliver s b n) (deliver u b n) := by
  have hasked := h.consumerAnswered.delivered s.cfg.instId b n (seenAtDelivery s b n)
    (seenAtDelivery u b n) (consumerAnswer s)
  unfold Machine.deliver
  rw [h.consumerAnswer_eq, h.cfg_eq]
  generalize consumerAnswer s = a at hasked ⊢
  cases a with
  | code c => exact hasked
  | acceptAndRelease => exact hasked
  | silent => exact hasked.hang .consumer

theorem handOver (h : SameButFrames s u) (b : Nat) (a : ConsumerAnswer) :
    SameButFrames (handOver s b a) (handOver u b a) := by
  cases a <;> exact h.update (f := (Machine.handOver · b _)) rfl fun _ _ => ⟨_, rfl⟩

theorem afterAcquire (h : SameButFrames s u) (b : Nat) :
    SameButFrames (afterAcquire s b) (afterAcquire u b) := by
  have ha := (h.poolAnswered.emit (.acquire (.ok b))).update
    (f := fun v => { setFrameOwner v b .dec with
      fb := v.fb.forget (fbAddr v.cfg b 0) v.cfg.bufSize }) rfl fun _ _ => ⟨_, rfl⟩
  simpa [Machine.afterAcquire] using ha

theorem afterOutAlloc (h : SameButFrames s u) (o : Nat) :
    SameButFrames (afterOutAlloc s o) (afterOutAlloc u o) := by
  have ha := (h.allocatorAnswered.emit (.outAlloc (.ok o))).update
    (f := fun v => { setOutOwner v o .enc with
      ob := v.ob.forget (obAddr v.cfg o 0) v.cfg.outCap }) rfl fun _ _ => ⟨_, rfl⟩
  simpa [Machine.afterOutAlloc] using ha

/-! ### The encoder -/

theorem clearStaging (h : SameButFrames s u) : SameButFrames (clearStaging s) (clearStaging u) :=
  h.update rfl fun _ _ => ⟨_, rfl⟩

theorem messageTooLarge (h : SameButFrames s u) (o : Nat) :
    SameButFrames (messageTooLarge s o) (messageTooLarge u o) :=
  ((h.update (f := fun v => { v with obOwner := Assoc.removeRange v.obOwner o 1 }) rfl
    fun _ _ => ⟨_, rfl⟩).emit (.outRelease o)).respond (.encResult .emsgsize 0 none)

theorem wireFrameReady (h : SameButFrames s u) (o len : Nat) :
    SameButFrames (wireFrameReady s o len) (wireFrameReady u o len) :=
  (h.update (f := fun v => setOutOwner v o .host) rfl fun _ _ => ⟨_, rfl⟩).respond
    (.encResult .ok len (some o))

theorem emitFrame (h : SameButFrames s u) (o : Nat) (ovf : Bool) (frame : List Byte) :
    SameButFrames (emitFrame s o ovf frame) (emitFrame u o ovf frame) := by
  have hob := fun m => h.update (f := fun v => { v with ob := m }) rfl fun _ _ => ⟨_, rfl⟩
  obtain ⟨m, l, -⟩ := h
  unfold Machine.emitFrame
  dsimp only
  split
  · exact (hob _).messageTooLarge o
  · exact (hob _).wireFrameReady o _

theorem encodeFrame (h : SameButFrames s u) (ovf : Bool) (n : Nat) (frame : List Byte) :
    Lockstep SameButFrames (encodeFrame s ovf n frame) (encodeFrame u ovf n frame) := by
  have hasked := fun a => h.allocatorAnswered.emit (.outAlloc a)
  refine encodeFrame_lockstep ?_ ?_ ?_ h.respond (fun o => (h.afterOutAlloc o).emitFrame o _ _)
    ((hasked .fail).raiseFault .allocFail) ((hasked .silent).hang .outAllocator)
  · cases h; rfl
  · cases h; rfl
  · cases h; exact fun _ => rfl

/-! ### The decoder -/

theorem bufWrite (h : SameButFrames s u) (b off : Nat) (v : Byte) :
    Lockstep SameButFrames (bufWrite s b off v) (bufWrite u b off v) := by
  obtain ⟨m, l, hl⟩ := h
  unfold Machine.bufWrite
  dsimp only
  split
  · exact .next (.mk _ l hl)
  · exact .fault _

theorem resetAndAck (h : SameButFrames s u) :
    Lockstep SameButFrames (resetAndAck s) (resetAndAck u) := by
  have ht := h.update (f := fun v => { setDiscard (setEsc v false) false with
    decCrc := fcsInit, decLen := 0 }) rfl fun _ _ => ⟨_, rfl⟩
  obtain ⟨m, l, -⟩ := h
  exact (ht.bufWrite _ _ _).andThen fun _ _ hv => .next (hv.respond .ack)

theorem acceptedDelivery (h : SameButFrames s u) (a : ConsumerAnswer) :
    Lockstep SameButFrames (acceptedDelivery s a) (acceptedDelivery u a) := by
  have hh := h.handOver s.decBuf a
  have hasked := fun a => hh.poolAnswered.emit (.acquire a)
  unfold Machine.acceptedDelivery
  rw [h.decBuf_eq, acquire_eq, acquire_eq, hh.poolAnswer_eq]
  cases poolAnswer (Machine.handOver s s.decBuf a) with
  | ok k =>
    simp only [hh.poolMayGive_eq]
    by_cases hk : poolMayGive (Machine.handOver s s.decBuf a) k = true
    · simp only [hk, if_true]
      exact ((hh.afterAcquire k).update (f := fun v => { v with decBuf := k }) rfl
        fun _ _ => ⟨_, rfl⟩).resetAndAck
    · simpa only [hk] using .refused _
  | fail => exact .next ((hasked .fail).raiseFault .allocFail)
  | silent => exact .next ((hasked .silent).hang .pool)

theorem rejectedDelivery (h : SameButFrames s u) (c : Code) :
    Lockstep SameButFrames (rejectedDelivery s c) (rejectedDelivery u c) :=
  (h.update (f := fun v => if v.decPend = 0 then { v with decPend := c } else v)
    (by split <;> rfl)
    fun m _ => ⟨m, by split <;> rfl⟩).resetAndAck

theorem deliverFrame (h : SameButFrames s u) :
    Lockstep SameButFrames (deliverFrame s) (deliverFrame u) := by
  have hd := h.deliver s.decBuf (s.decLen - fcsLen)
  have hlen : u.decLen = s.decLen := by cases h; rfl
  unfold Machine.deliverFrame
  rw [h.decBuf_eq, hlen, h.consumerAnswer_eq]
  cases answeredCode (consumerAnswer s) with
  | none => exact .next hd
  | some c =>
    by_cases hc : c = 0
    · simpa only [hc, if_true] using hd.acceptedDelivery (consumerAnswer s)
    · simpa only [if_neg hc] using hd.rejectedDelivery c

theorem storeByte (h : SameButFrames s u) (b : Byte) :
    Lockstep SameButFrames (storeByte s b) (storeByte u b) := by
  have hfull := h.update (f := (setDiscard · true)) rfl fun _ _ => ⟨_, rfl⟩
  have hstored := h.bufWrite s.decBuf (hdrRes + s.decLen) b
  obtain ⟨m, l, -⟩ := h
  unfold Machine.storeByte
  split
  · exact .next (hfull.respond .ack)
  · refine hstored.andThen fun t v ht => .next (.respond ?_ .ack)
    exact ht.update (f := fun v => { v with
      decLen := v.decLen + 1, decCrc := crc16Update v.decCrc b }) rfl fun _ _ => ⟨_, rfl⟩

theorem consumeByte (h : SameButFrames s u) (b : Byte) :
    Lockstep SameButFrames (consumeByte s b) (consumeByte u b) := by
  have hesc := fun x => h.update (f := (setEsc · x)) rfl fun _ _ => ⟨_, rfl⟩
  have hflags : frameOK u = frameOK s ∧ u.decDiscard = s.decDiscard ∧ u.decEsc = s.decEsc := by
    cases h; exact ⟨rfl, rfl, rfl⟩
  obtain ⟨hok, hdis, he⟩ := hflags
  unfold Machine.consumeByte flagByte
  rw [hok, hdis, he]
  split
  · split
    · exact h.deliverFrame
    · exact h.resetAndAck
  · split
    · exact .next (h.respond .ack)
    · split
      · exact (hesc false).storeByte _
      · split
        · exact .next ((hesc true).respond .ack)
        · exact h.storeByte b

/-! ### The commands -/

theorem exec (h : SameButFrames s u) (i : Instr) :
    Lockstep SameButFrames (exec i s) (exec i u) := by
  have hctl : u.wait = s.wait ∧ u.fault = s.fault := by cases h; exact ⟨rfl, rfl⟩
  obtain ⟨hw, hf⟩ := hctl
  refine exec_lockstep hw hf h.respond fun hr => ?_
  have hru : Ready u := by rwa [Ready, hw, hf]
  obtain ⟨hn, hin, hovf⟩ := h.sameStaging
  cases i with
  | decReset =>
    rw [exec_decReset hr, exec_decReset hru]
    exact h.resetAndAck
  | decByte b =>
    rw [exec_decByte hr, exec_decByte hru]
    exact h.consumeByte b
  | decEnd =>
    have hp : u.decPend = s.decPend := by cases h; rfl
    rw [exec_decEnd hr, exec_decEnd hru, hp]
    have hcleared := h.update (f := fun v => { v with decPend := 0 }) rfl fun _ _ => ⟨_, rfl⟩
    exact .next (hcleared.respond _)
  | encClear =>
    rw [exec_encClear hr, exec_encClear hru]
    exact .next (h.clearStaging.respond .ack)
  | encLoad b =>
    have hloaded := h.update (f := fun v => { v with
      encIn := v.encIn.set v.encN b, encN := v.encN + 1 }) rfl fun _ _ => ⟨_, rfl⟩
    have hfull := h.update (f := (setOvf · true)) rfl fun _ _ => ⟨_, rfl⟩
    obtain ⟨m, l, -⟩ := h
    rw [exec_encLoad hr, exec_encLoad hru]
    split
    · exact .next (hloaded.respond .ack)
    · exact .next (hfull.respond .ack)
  | encFrame =>
    rw [exec_encFrame hr, exec_encFrame hru, stagedFrame, stagedFrame, hn, hin, hovf]
    exact h.clearStaging.encodeFrame _ _ _

end SameButFrames

/-- Settles O37, by running each command in lockstep on the two memories. -/
theorem frameMemoryNeverRead : Obligations.FrameMemoryNeverRead := by
  unfold Obligations.FrameMemoryNeverRead
  intro i s t m h
  have hsame : SameButFrames s { s with fb := m } := .mk m s.trace rfl
  obtain ⟨u, hu, hR⟩ := (hsame.exec i).exists_next h
  refine ⟨u, hu, ?_⟩
  have hresp := hR.responses_eq
  cases hR
  simp [SameDecoder, SameStaging, SameOutputSide, hresp]

end Sys2Proof.Machine
end

section
/-!
PROOFS. What each command stores in memory, by reading every byte (20_memory.md section 2): the bytes
each operation writes, the memories a command leaves alone, and the frame of `DEC_BYTE`.
-/
namespace Sys2Proof.Machine

variable {s t : State}

/-! ## The configuration and the memories after the decoder's and encoder's operations -/

@[simp] theorem askingPool_cfg (s : State) : (askingPool s).cfg = s.cfg := by simp [askingPool]

@[simp] theorem askingPool_fb (s : State) : (askingPool s).fb = s.fb := by simp [askingPool]

@[simp] theorem askingPool_ob (s : State) : (askingPool s).ob = s.ob := by simp [askingPool]

@[simp] theorem afterDecReset_cfg (s : State) : (afterDecReset s).cfg = s.cfg := rfl

@[simp] theorem afterDecReset_ob (s : State) : (afterDecReset s).ob = s.ob := rfl

@[simp] theorem afterDecReset_trace (s : State) : (afterDecReset s).trace = s.trace := rfl

@[simp] theorem afterAppend_cfg (s : State) (b : Byte) : (afterAppend s b).cfg = s.cfg := rfl

@[simp] theorem afterAppend_ob (s : State) (b : Byte) : (afterAppend s b).ob = s.ob := rfl

@[simp] theorem afterAccept_cfg (s : State) (k : Nat) : (afterAccept s k).cfg = s.cfg := by
  simp [afterAccept, afterAcquire]

@[simp] theorem afterAccept_ob (s : State) (k : Nat) : (afterAccept s k).ob = s.ob := by
  simp [afterAccept, afterAcquire]

@[simp] theorem afterOutAlloc_cfg (s : State) (o : Nat) : (afterOutAlloc s o).cfg = s.cfg := by
  simp [afterOutAlloc]

@[simp] theorem afterOutAlloc_fb (s : State) (o : Nat) : (afterOutAlloc s o).fb = s.fb := by
  simp [afterOutAlloc]

@[simp] theorem emitFrame_cfg (s : State) (o : Nat) (ovf : Bool) (frame : List Byte) :
    (emitFrame s o ovf frame).cfg = s.cfg := by
  unfold emitFrame
  dsimp only
  split <;> rfl

@[simp] theorem emitFrame_fb (s : State) (o : Nat) (ovf : Bool) (frame : List Byte) :
    (emitFrame s o ovf frame).fb = s.fb := by
  unfold emitFrame
  dsimp only
  split <;> rfl

/-! ## Commands that leave a memory alone -/

theorem encodeFrame_keeps_fb {ovf : Bool} {n : Nat} {frame : List Byte}
    (h : encodeFrame s ovf n frame = .next t) : t.cfg = s.cfg ∧ t.fb = s.fb := by
  obtain ⟨-, -, rfl⟩ | ⟨-, ⟨o, -, -, rfl⟩ | ⟨-, rfl⟩ | ⟨-, rfl⟩⟩ := encodeFrame_cases h <;> simp

/-- Only `DEC_RESET` and `DEC_BYTE` store in frame buffers (20_memory.md R62, R64). -/
theorem exec_keeps_fb {i : Instr} (hreset : i ≠ .decReset) (hbyte : ∀ b, i ≠ .decByte b)
    (h : exec i s = .next t) : t.cfg = s.cfg ∧ t.fb = s.fb := by
  obtain hr | ⟨-, -, rfl⟩ := exec_next h
  · cases i with
    | decReset => exact absurd rfl hreset
    | decByte b => exact absurd rfl (hbyte b)
    | decEnd => rw [exec_decEnd hr] at h; cases h; simp
    | encClear => rw [exec_encClear hr] at h; cases h; simp
    | encLoad b => rw [exec_encLoad hr] at h; split at h <;> cases h <;> simp
    | encFrame => exact encodeFrame_keeps_fb (s := clearStaging s) (exec_encFrame hr ▸ h)
  · simp

theorem storeByte_keeps_ob {b : Byte} (h : storeByte s b = .next t) :
    t.cfg = s.cfg ∧ t.ob = s.ob := by
  obtain ⟨-, rfl⟩ | ⟨-, -, rfl⟩ := storeByte_cases h <;> simp

theorem deliverFrame_keeps_ob (h : deliverFrame s = .next t) : t.cfg = s.cfg ∧ t.ob = s.ob := by
  obtain ⟨k, -, -, -, -, rfl⟩ | ⟨-, -, rfl⟩ | ⟨-, -, rfl⟩ | ⟨c, -, -, -, rfl⟩ | ⟨-, rfl⟩ :=
    deliverFrame_cases h <;> simp

theorem consumeByte_keeps_ob {b : Byte} (h : consumeByte s b = .next t) :
    t.cfg = s.cfg ∧ t.ob = s.ob := by
  obtain ⟨-, -, -, rfl⟩ | ⟨-, -, h⟩ | ⟨-, -, rfl⟩ | ⟨-, -, -, h⟩ | ⟨-, -, -, rfl⟩ |
    ⟨-, -, -, -, h⟩ := consumeByte_cases h
  · simp
  · exact deliverFrame_keeps_ob h
  · simp
  · exact storeByte_keeps_ob (s := setEsc s false) h
  · simp
  · exact storeByte_keeps_ob h

/-- Only `ENC_FRAME` stores in output buffers (20_memory.md R67). -/
theorem exec_keeps_ob {i : Instr} (hframe : i ≠ .encFrame) (h : exec i s = .next t) :
    t.cfg = s.cfg ∧ t.ob = s.ob := by
  obtain hr | ⟨-, -, rfl⟩ := exec_next h
  · cases i with
    | decReset =>
      obtain ⟨-, rfl⟩ := resetAndAck_cases (exec_decReset hr ▸ h)
      simp
    | decByte b => exact consumeByte_keeps_ob (exec_decByte hr b ▸ h)
    | decEnd => rw [exec_decEnd hr] at h; cases h; simp
    | encClear => rw [exec_encClear hr] at h; cases h; simp
    | encLoad b => rw [exec_encLoad hr] at h; split at h <;> cases h <;> simp
    | encFrame => exact absurd rfl hframe
  · simp

/-! ## The bytes the decoder stores -/

/-- Every frame-buffer byte reads the same in both states but byte `o` of buffer `b`. -/
def SameBytesBut (b o : Nat) (s t : State) : Prop :=
  ∀ h off, h ≠ b ∨ off ≠ o → fbRead t h off = fbRead s h off

theorem SameBytesBut.of_fb_eq {b o : Nat} (hc : t.cfg = s.cfg) (hm : t.fb = s.fb) :
    SameBytesBut b o s t :=
  fun h off _ => fbRead_congr hc hm h off

/-- The state before may be any with the same configuration and frame memory. -/
theorem SameBytesBut.from_fb_eq {u : State} {b o : Nat} (h : SameBytesBut b o u t)
    (hc : u.cfg = s.cfg) (hm : u.fb = s.fb) : SameBytesBut b o s t :=
  fun k off hne => (h k off hne).trans (fbRead_congr hc hm k off)

theorem sameBytesBut_afterDecReset (hlt : tagOffset < s.cfg.bufSize) :
    SameBytesBut s.decBuf tagOffset s (afterDecReset s) :=
  fun _ _ hne => fbRead_write_ne s s.cfg.tagInit hlt hne

theorem sameBytesBut_afterAppend (b : Byte) (hlt : hdrRes + s.decLen < s.cfg.bufSize) :
    SameBytesBut s.decBuf (hdrRes + s.decLen) s (afterAppend s b) :=
  fun _ _ hne => fbRead_write_ne s b hlt hne

theorem fbRead_afterAppend_self (b : Byte) (hlt : hdrRes + s.decLen < s.cfg.bufSize) :
    fbRead (afterAppend s b) s.decBuf (hdrRes + s.decLen) = some b :=
  fbRead_write_self s s.decBuf _ b hlt

/-- The acquired buffer is unwritten, every other one reads as before (20_memory.md R65). -/
theorem fbRead_afterAccept (s : State) (k h off : Nat) :
    fbRead (afterAccept s k) h off = if h = k then none else fbRead s h off := by
  rw [← fbRead_forget s k h off]
  exact fbRead_congr (by simp) (by simp [afterAccept, afterAcquire]) h off

theorem justAcquired_afterAccept (s : State) (k : Nat) :
    JustAcquired s (respond (afterDecReset (afterAccept s k)) .ack) k := by
  refine ⟨.deliver s.cfg.instId s.decBuf (s.decLen - 2) (seenAtDelivery s s.decBuf (s.decLen - 2))
    (consumerAnswer s), ?_⟩
  simp [afterAccept, afterAcquire, askingPool]

theorem storeByte_sameBytesBut {b : Byte} (h : storeByte s b = .next t) :
    SameBytesBut s.decBuf (hdrRes + s.decLen) s t := by
  obtain ⟨-, rfl⟩ | ⟨-, hlt, rfl⟩ := storeByte_cases h
  · exact .of_fb_eq rfl rfl
  · exact sameBytesBut_afterAppend b hlt

/-- The decoder got the buffer `t.decBuf` from the pool: its bytes are unwritten but for the tag, and
every other buffer reads as before. -/
def FreshBuffer (s t : State) : Prop :=
  JustAcquired s t t.decBuf ∧ ∀ h off, h ≠ t.decBuf ∨ off ≠ tagOffset →
    fbRead t h off = if h = t.decBuf then none else fbRead s h off

theorem deliverFrame_frameBytes (h : deliverFrame s = .next t) :
    SameBytesBut t.decBuf tagOffset s t ∨ FreshBuffer s t := by
  obtain ⟨k, -, -, -, hlt, rfl⟩ | ⟨-, -, rfl⟩ | ⟨-, -, rfl⟩ | ⟨c, -, -, hlt, rfl⟩ | ⟨-, rfl⟩ :=
    deliverFrame_cases h
  · have htag := sameBytesBut_afterDecReset (s := afterAccept s k) (by simpa using hlt)
    exact .inr ⟨justAcquired_afterAccept s k, fun b off hne =>
      (htag b off hne).trans (fbRead_afterAccept s k b off)⟩
  · exact .inl (.of_fb_eq (by simp) (by simp))
  · exact .inl (.of_fb_eq (by simp) (by simp))
  · have htag := sameBytesBut_afterDecReset (s := { deliver s s.decBuf (s.decLen - 2) with
      decPend := if s.decPend = 0 then c else s.decPend }) (by simpa using hlt)
    exact .inl (htag.from_fb_eq (by simp) (by simp))
  · exact .inl (.of_fb_eq (by simp) (by simp))

/-- What `DEC_BYTE` can store in frame buffers: the byte at the write cursor, or at a `FLAG` the tag,
which of a fresh buffer is the only byte with a value. -/
theorem exec_decByte_frameBytes {b : Byte} (h : exec (.decByte b) s = .next t) :
    (b ≠ flag ∧ SameBytesBut s.decBuf (hdrRes + s.decLen) s t) ∨
    (b = flag ∧ (SameBytesBut t.decBuf tagOffset s t ∨ FreshBuffer s t)) := by
  obtain hr | ⟨-, -, rfl⟩ := exec_next h
  · obtain ⟨hb, -, hlt, rfl⟩ | ⟨hb, -, h⟩ | ⟨hb, -, rfl⟩ | ⟨hb, -, -, h⟩ | ⟨rfl, -, -, rfl⟩ |
      ⟨hb, -, -, -, h⟩ := consumeByte_cases (exec_decByte hr b ▸ h)
    · exact .inr ⟨hb, .inl (sameBytesBut_afterDecReset hlt)⟩
    · exact .inr ⟨hb, deliverFrame_frameBytes h⟩
    · exact .inl ⟨hb, .of_fb_eq rfl rfl⟩
    · exact .inl ⟨hb, (storeByte_sameBytesBut h).from_fb_eq rfl rfl⟩
    · exact .inl ⟨by decide, .of_fb_eq rfl rfl⟩
    · exact .inl ⟨hb, storeByte_sameBytesBut h⟩
  · by_cases hb : b = flag
    · exact .inr ⟨hb, .inl (.of_fb_eq rfl rfl)⟩
    · exact .inl ⟨hb, .of_fb_eq rfl rfl⟩

/-- Settles O33, by the stores `DEC_BYTE` can make. -/
theorem decByteMemoryFrame : Obligations.DecByteMemoryFrame := by
  unfold Obligations.DecByteMemoryFrame
  intro s t b h k off hdata hflag
  obtain ⟨hb, hsame⟩ | ⟨hb, hsame | ⟨hacq, hfresh⟩⟩ := exec_decByte_frameBytes h
  · exact hsame k off (not_or_of_imp (hdata hb))
  · exact hsame k off (not_or_of_imp fun hk => (hflag hb hk).2)
  · have hk : k ≠ t.decBuf := fun hk => (hflag hb hk).1 (hk ▸ hacq)
    rw [hfresh k off (.inl hk), if_neg hk]

theorem exec_decReset_sameBytesBut (h : exec .decReset s = .next t) :
    SameBytesBut s.decBuf tagOffset s t := by
  obtain hr | ⟨-, -, rfl⟩ := exec_next h
  · obtain ⟨hlt, rfl⟩ := resetAndAck_cases (exec_decReset hr ▸ h)
    exact sameBytesBut_afterDecReset hlt
  · exact .of_fb_eq rfl rfl

/-- A command stores at most one byte in frame buffers, the tag or one behind it, and may have acquired
the buffer of that byte just before. -/
theorem exec_frameBytes {i : Instr} (h : exec i s = .next t) :
    (∃ b o, tagOffset ≤ o ∧ SameBytesBut b o s t) ∨ FreshBuffer s t := by
  by_cases hreset : i = .decReset
  · subst hreset
    exact .inl ⟨_, _, le_rfl, exec_decReset_sameBytesBut h⟩
  by_cases hbyte : ∃ b, i = .decByte b
  · obtain ⟨b, rfl⟩ := hbyte
    obtain ⟨-, hsame⟩ | ⟨-, hsame | hfresh⟩ := exec_decByte_frameBytes h
    · exact .inl ⟨_, _, by unfold tagOffset; omega, hsame⟩
    · exact .inl ⟨_, _, le_rfl, hsame⟩
    · exact .inr hfresh
  · obtain ⟨hc, hm⟩ := exec_keeps_fb hreset (not_exists.mp hbyte) h
    exact .inl ⟨0, _, le_rfl, .of_fb_eq hc hm⟩

/-- Settles O35: a command's one store is at the tag's offset or behind it. -/
theorem headerBytesUntouched : Obligations.HeaderBytesUntouched := by
  unfold Obligations.HeaderBytesUntouched
  intro i s t h k off hoff
  obtain ⟨b, o, ho, hsame⟩ | ⟨hacq, hfresh⟩ := exec_frameBytes h
  · exact .inl (hsame k off (.inr (hoff.trans_le ho).ne))
  · have hread := hfresh k off (.inr hoff.ne)
    by_cases hk : k = t.decBuf
    · exact .inr ⟨hk, hk ▸ hacq, hread.trans (if_pos hk)⟩
    · exact .inl (hread.trans (if_neg hk))

/-! ## Reading every byte back -/

theorem exec_decReset_fbRead (hr : Ready s) (h : exec .decReset s = .next t) (k off : Nat) :
    fbRead t k off =
      if k = s.decBuf ∧ off = tagOffset then some s.cfg.tagInit else fbRead s k off := by
  split
  · rename_i hk
    obtain ⟨rfl, rfl⟩ := hk
    obtain ⟨hlt, rfl⟩ := resetAndAck_cases (exec_decReset hr ▸ h)
    exact fbRead_tag_afterDecReset s hlt
  · exact exec_decReset_sameBytesBut h k off (not_and_or.mp ‹_›)

theorem storeByte_reads_back {b : Byte} (hroom : s.decLen < s.cfg.cap)
    (h : storeByte s b = .next t) : fbRead t s.decBuf (hdrRes + s.decLen) = some b := by
  obtain ⟨hfull, -⟩ | ⟨-, hlt, rfl⟩ := storeByte_cases h
  · omega
  · exact fbRead_afterAppend_self b hlt

/-- Settles O34: the stores of `DEC_RESET` and of a data byte read back, and the memories the other
commands leave alone. -/
theorem commandMemoryFrames : Obligations.CommandMemoryFrames := by
  unfold Obligations.CommandMemoryFrames
  refine ⟨fun s t hr h => exec_decReset_fbRead hr h, ?_, ?_, ?_⟩
  · intro s t b v hr hb hd hv hroom h
    rw [exec_decByte hr] at h
    obtain ⟨he, rfl⟩ | ⟨he, hm, rfl⟩ := hv
    · rw [consumeByte_escaped hb hd he] at h
      exact storeByte_reads_back (s := setEsc s false) hroom h
    · rw [consumeByte_data hb hd he hm] at h
      exact storeByte_reads_back hroom h
  · intro i s t hreset hbyte h k off
    obtain ⟨hc, hm⟩ := exec_keeps_fb hreset hbyte h
    exact fbRead_congr hc hm k off
  · intro i s t hframe h o off
    obtain ⟨hc, hm⟩ := exec_keeps_ob hframe h
    exact obRead_congr hc hm o off

end Sys2Proof.Machine
end

section
/-!
PROOFS. A command word by its three fields, what the opcode map selects and what the decoder answers in
their terms, and the meaning of an illegal word (30_encoding.md sections 1 and 3).
-/
namespace Sys2Proof

variable {w : Word} {i : Instr}

/-! ## A word is its three fields -/

theorem fields_append (w : Word) :
    opField w ++ (rsvField w ++ immField w : BitVec 12) = w := by
  unfold opField rsvField immField
  rw [BitVec.extractLsb'_append_extractLsb'_eq_extractLsb' (by rfl),
    BitVec.extractLsb'_append_extractLsb'_eq_extractLsb' (by rfl), BitVec.extractLsb'_eq_self]

theorem word_eq_iff_fields {v w : Word} :
    v = w ↔ opField v = opField w ∧ rsvField v = rsvField w ∧ immField v = immField w := by
  constructor
  · rintro rfl
    exact ⟨rfl, rfl, rfl⟩
  · rintro ⟨hop, hrsv, himm⟩
    rw [← fields_append v, hop, hrsv, himm, fields_append]

@[simp] theorem opField_encode (i : Instr) : opField (encode i) = opOf i :=
  BitVec.extractLsb'_append_eq_left

@[simp] theorem rsvField_encode (i : Instr) : rsvField (encode i) = 0#4 := by
  rw [rsvField, encode, BitVec.extractLsb'_append_eq_of_add_le (by decide)]
  exact BitVec.extractLsb'_append_eq_left

@[simp] theorem immField_encode (i : Instr) : immField (encode i) = immOf i := by
  rw [immField, encode, BitVec.extractLsb'_append_eq_of_add_le (by decide)]
  exact BitVec.extractLsb'_append_eq_right

theorem eq_encode_iff_fields :
    w = encode i ↔ opField w = opOf i ∧ rsvField w = 0#4 ∧ immField w = immOf i := by
  simp [word_eq_iff_fields]

/-! ## Decode and encode -/

theorem decode_encode (i : Instr) : decode (encode i) = .ok i := by
  cases i <;> simp [decode, opOf, immOf]

theorem eq_encode_of_decode (h : decode w = .ok i) : w = encode i := by
  unfold decode at h
  split_ifs at h with hrsv hop hop himm hop hop hop hop <;> cases h <;> rw [eq_encode_iff_fields]
  · exact ⟨hop, not_not.mp hrsv, rfl⟩
  · exact ⟨hop, not_not.mp hrsv, rfl⟩
  all_goals exact ⟨hop, not_not.mp hrsv, not_not.mp himm⟩

theorem decode_eq_ok_iff : decode w = .ok i ↔ w = encode i := by
  constructor
  · exact eq_encode_of_decode
  · rintro rfl
    exact decode_encode i

/-- Settles O1: the fields of an instruction's word lead `decode` back to the instruction, and every
word `decode` accepts has the fields of its instruction's word. -/
theorem decodeInvertsEncode : Obligations.DecodeInvertsEncode :=
  fun _ _ => decode_eq_ok_iff

/-- Settles O5: each word is its instruction's, so it decodes to it. -/
theorem writtenOutWordsDecode : Obligations.WrittenOutWordsDecode := by
  unfold Obligations.WrittenOutWordsDecode
  simp only [decode_eq_ok_iff]
  decide

/-! ## The opcode map -/

theorem selectedBy_iff_fields (r : OpRow) (w : Word) :
    r.selectedBy w = true ↔
      opField w &&& opField r.mask = opField r.pattern ∧
      rsvField w &&& rsvField r.mask = rsvField r.pattern ∧
      immField w &&& immField r.mask = immField r.pattern := by
  rw [OpRow.selectedBy, beq_iff_eq, word_eq_iff_fields]
  simp only [opField, rsvField, immField, BitVec.extractLsb'_and]

/-- The operation codes whose row leaves `IMM8` free (30_encoding.md R93, R94). -/
abbrev TakesOperand (op : BitVec 4) : Prop := op = 0x2#4 ∨ op = 0x5#4

/-- The operation codes whose row fixes `IMM8` to `0x00` (30_encoding.md R93, R94). -/
abbrev TakesNoOperand (op : BitVec 4) : Prop := op = 0x1#4 ∨ op = 0x3#4 ∨ op = 0x4#4 ∨ op = 0x6#4

/-- The fields of the words the opcode map selects (30_encoding.md R91 to R94). -/
def LegalFields (w : Word) : Prop :=
  rsvField w = 0#4 ∧
    (TakesOperand (opField w) ∨ TakesNoOperand (opField w) ∧ immField w = 0x00#8)

theorem legalWord_iff_fields : legalWord w = true ↔ LegalFields w := by
  simp only [legalWord, opcodeMap, List.any_cons, List.any_nil, Bool.or_eq_true,
    selectedBy_iff_fields, LegalFields]
  -- only the rows' own fields are left to evaluate
  generalize opField w = op, rsvField w = rsv, immField w = imm
  have hop : op &&& 0xF#4 = op := BitVec.and_allOnes
  have hrsv : rsv &&& 0xF#4 = rsv := BitVec.and_allOnes
  have himm : imm &&& 0xFF#8 = imm := BitVec.and_allOnes
  simp only [opField, rsvField, immField, BitVec.reduceExtractLsb', hop, hrsv, himm,
    BitVec.and_zero, and_true, Bool.false_eq_true, or_false]
  tauto

theorem exists_encode_iff_fields : (∃ i, w = encode i) ↔ LegalFields w := by
  simp only [eq_encode_iff_fields, LegalFields]
  constructor
  · rintro ⟨i, hop, hrsv, himm⟩
    refine ⟨hrsv, ?_⟩
    cases i with
    | decByte b => exact .inl (.inl hop)
    | encLoad b => exact .inl (.inr hop)
    | decReset => exact .inr ⟨.inl hop, himm⟩
    | decEnd => exact .inr ⟨.inr (.inl hop), himm⟩
    | encClear => exact .inr ⟨.inr (.inr (.inl hop)), himm⟩
    | encFrame => exact .inr ⟨.inr (.inr (.inr hop)), himm⟩
  · rintro ⟨hrsv, (hop | hop) | ⟨hop | hop | hop | hop, himm⟩⟩
    · exact ⟨.decByte (immField w), hop, hrsv, rfl⟩
    · exact ⟨.encLoad (immField w), hop, hrsv, rfl⟩
    · exact ⟨.decReset, hop, hrsv, himm⟩
    · exact ⟨.decEnd, hop, hrsv, himm⟩
    · exact ⟨.encClear, hop, hrsv, himm⟩
    · exact ⟨.encFrame, hop, hrsv, himm⟩

theorem exists_decode_iff_legalWord (w : Word) :
    (∃ i, decode w = .ok i) ↔ legalWord w = true :=
  calc (∃ i, decode w = .ok i) ↔ ∃ i, w = encode i := exists_congr fun _ => decode_eq_ok_iff
    _ ↔ LegalFields w := exists_encode_iff_fields
    _ ↔ legalWord w = true := legalWord_iff_fields.symm

/-- The lemmas of family TableRow (30_encoding.md R94), for every instruction. -/
theorem tableRow (i : Instr) : Laws.TableRow.Statement i := by
  cases i with
  | decReset => exact Laws.TableRow.decReset
  | decByte b => exact Laws.TableRow.decByte b
  | decEnd => exact Laws.TableRow.decEnd
  | encClear => exact Laws.TableRow.encClear
  | encLoad b => exact Laws.TableRow.encLoad b
  | encFrame => exact Laws.TableRow.encFrame

/-- Settles O2: both sides of the first clause say the same of the word's fields, and the word of an
instruction selects the rows `tableRow` names. -/
theorem decodedWordsAreTheMapRows : Obligations.DecodedWordsAreTheMapRows := by
  unfold Obligations.DecodedWordsAreTheMapRows
  refine ⟨exists_decode_iff_legalWord, fun w i r hdec hr => ?_⟩
  rw [eq_encode_of_decode hdec]
  exact tableRow i r hr

/-! ## Illegal words -/

theorem reservedOp_iff (op : BitVec 4) :
    op = 0x0#4 ∨ 0x7#4 ≤ op ↔ ¬ TakesOperand op ∧ ¬ TakesNoOperand op := by
  revert op
  decide

theorem not_takesNoOperand_of_takesOperand {op : BitVec 4} (h : TakesOperand op) :
    ¬ TakesNoOperand op := by
  obtain rfl | rfl := h <;> decide

theorem legalWord_eq_false_iff (w : Word) : legalWord w = false ↔
    (opField w = 0x0#4 ∨ 0x7#4 ≤ opField w) ∨ rsvField w ≠ 0#4 ∨
      TakesNoOperand (opField w) ∧ immField w ≠ 0x00#8 := by
  rw [← Bool.not_eq_true, legalWord_iff_fields, LegalFields, reservedOp_iff]
  have hdisjoint := @not_takesNoOperand_of_takesOperand (opField w)
  tauto

namespace Machine

theorem runWord_of_illegal {s : State} (hw : legalWord w = false) :
    runWord w s = illegalCommand s := by
  cases hdec : decode w with
  | ok i =>
    exact absurd ((exists_decode_iff_legalWord w).mp ⟨i, hdec⟩) (by simp [hw])
  | error e => rw [runWord, hdec]

theorem illegalCommand_ready {s : State} (hs : Ready s) :
    illegalCommand s = .next (raiseFault s .illegalCmd) := by
  unfold illegalCommand
  exact runCommand_ready hs _

/-- Settles O3: the complement of `LegalFields`; and `illegalCommand` raises the fault, since `decode`
refuses the word. -/
theorem illegalWordsByField : Obligations.IllegalWordsByField := by
  unfold Obligations.IllegalWordsByField
  refine ⟨legalWord_eq_false_iff, fun s w hs hw => ?_⟩
  rw [runWord_of_illegal hw, illegalCommand_ready hs]
  rfl

end Machine
end Sys2Proof
end

section
/-!
PROOFS. The CRC generator: the table-driven update is the bit-serial one, and the residue of a frame
with its check sequence (40_crc.md R126, R127).
-/
namespace Sys2Proof.Machine

/-! ## The table-driven and the bit-serial update -/

theorem crcShifts_eq_iterate (k : Nat) (v : Word) : crcShifts k v = crcShift^[k] v := by
  induction k generalizing v with
  | zero => rfl
  | succ k ih => exact ih (crcShift v)

theorem crcShifts_succ (k : Nat) (v : Word) : crcShifts (k + 1) v = crcShift (crcShifts k v) := by
  simp only [crcShifts_eq_iterate, Function.iterate_succ_apply']

/-- A serial pass takes bit 0 of `v` where the generating loop has all of `v` in its register; the
other bits of `v` move one place down. -/
theorem crcSerialStep_xor_shift (c v : Word) :
    crcSerialStep c (v.getLsbD 0) ^^^ v >>> 1 = crcShift (c ^^^ v) := by
  unfold crcSerialStep crcShift
  rw [BitVec.getLsbD_xor, BitVec.ushiftRight_xor_distrib, Bool.bne_eq_xor]
  split
  · ac_rfl
  · rfl

/-- After `n` serial passes over the low byte of `v`, the bits of `v` not yet taken stand apart from
the register; the generating loop has folded them in at its start. -/
theorem serialPasses_xor_shift (c v : Word) {n : Nat} (hn : n ≤ 8) :
    (List.range n).foldl (fun c k => crcSerialStep c ((v.setWidth 8).getLsbD k)) c ^^^ v >>> n =
      crcShifts n (c ^^^ v) := by
  induction n with
  | zero => simp [crcShifts]
  | succ n ih =>
    have hbit : (v.setWidth 8).getLsbD n = (v >>> n).getLsbD 0 := by
      simp [BitVec.getLsbD_setWidth]
      omega
    rw [List.range_succ, List.foldl_append, List.foldl_cons, List.foldl_nil, hbit,
      BitVec.shiftRight_add, crcSerialStep_xor_shift, ih (by omega), crcShifts_succ]

theorem crc16UpdateSerial_xor_shift (c v : Word) :
    crc16UpdateSerial c (v.setWidth 8) ^^^ v >>> 8 = crcShifts 8 (c ^^^ v) :=
  serialPasses_xor_shift c v le_rfl

theorem byte_setWidth_shift (b : Byte) : (b.setWidth 16 : Word) >>> 8 = 0#16 := by
  ext i hi
  simp [BitVec.getLsbD_setWidth]

theorem crc16UpdateSerial_eq_crcShifts (c : Word) (b : Byte) :
    crc16UpdateSerial c b = crcShifts 8 (c ^^^ b.setWidth 16) := by
  have h := crc16UpdateSerial_xor_shift c (b.setWidth 16)
  rwa [byte_setWidth_shift, BitVec.xor_zero, BitVec.setWidth_setWidth_of_le _ (by decide),
    BitVec.setWidth_eq] at h

theorem crcTable_eq_crcTableGen (i : Byte) : crcTable i = crcTableGen i := by
  revert i
  decide

/-- Eight passes of the generating loop take the low byte alone for what they fold in, and move the
high byte down. -/
theorem crcShifts_eight (v : Word) : crcShifts 8 v = v >>> 8 ^^^ crcTable (v.setWidth 8) := by
  have hlow : crc16UpdateSerial 0#16 (v.setWidth 8) = crcTable (v.setWidth 8) := by
    rw [crcTable_eq_crcTableGen, crc16UpdateSerial_eq_crcShifts, BitVec.zero_xor, crcTableGen]
  rw [← hlow, BitVec.xor_comm, crc16UpdateSerial_xor_shift, BitVec.zero_xor]

/-- Settles O17: both forms are eight passes of the generating loop over the register with the byte
folded in. -/
theorem crcTableFormIsSerialForm : Obligations.CrcTableFormIsSerialForm := by
  unfold Obligations.CrcTableFormIsSerialForm
  intro c b
  have hhigh : (c ^^^ b.setWidth 16) >>> 8 = c >>> 8 := by
    rw [BitVec.ushiftRight_xor_distrib, byte_setWidth_shift, BitVec.xor_zero]
  rw [crc16UpdateSerial_eq_crcShifts, crcShifts_eight, hhigh, crc16Update, crcIndex]

/-! ## The residue -/

@[simp] theorem lowByte_not (c : Word) : lowByte (~~~c) = ~~~lowByte c :=
  BitVec.extractLsb'_not_of_lt (by decide)

@[simp] theorem highByte_not (c : Word) : highByte (~~~c) = ~~~highByte c := by
  ext i hi
  simp [highByte]
  omega

@[simp] theorem lowByte_xor (c d : Word) : lowByte (c ^^^ d) = lowByte c ^^^ lowByte d :=
  BitVec.extractLsb'_xor

@[simp] theorem lowByte_shift (c : Word) : lowByte (c >>> 8) = highByte c := by
  apply BitVec.eq_of_toNat_eq
  simp [lowByte, highByte]

theorem crcIndex_eq_xor (c : Word) (b : Byte) : crcIndex c b = lowByte c ^^^ b := by
  rw [crcIndex, BitVec.setWidth_xor, BitVec.setWidth_setWidth_of_le _ (by decide),
    BitVec.setWidth_eq, BitVec.setWidth_eq_extractLsb' (by decide), lowByte]

/-- The low check byte makes the index `0xFF`, whatever was in the register. -/
theorem crc16Update_lowByte_not (c : Word) :
    crc16Update c (lowByte (~~~c)) = c >>> 8 ^^^ crcTable 0xFF#8 := by
  have hidx : crcIndex c (lowByte (~~~c)) = 0xFF#8 := by
    rw [crcIndex_eq_xor, lowByte_not, ← BitVec.not_xor_right, BitVec.xor_self]
    rfl
  rw [crc16Update, hidx]

/-- The high check byte cancels what is left of the register `c`. -/
theorem crc16Update_highByte_not (c t : Word) :
    crc16Update (c >>> 8 ^^^ t) (highByte (~~~c)) = t >>> 8 ^^^ crcTable (~~~lowByte t) := by
  have hidx : crcIndex (c >>> 8 ^^^ t) (highByte (~~~c)) = ~~~lowByte t := by
    rw [crcIndex_eq_xor, lowByte_xor, lowByte_shift, highByte_not, ← BitVec.not_xor_right,
      BitVec.xor_comm, ← BitVec.xor_assoc, BitVec.xor_self, BitVec.zero_xor]
  have hshift : (c >>> 8 ^^^ t) >>> 8 = t >>> 8 := by
    rw [BitVec.ushiftRight_xor_distrib, ← BitVec.shiftRight_add, BitVec.ushiftRight_eq_zero le_rfl,
      BitVec.zero_xor]
  rw [crc16Update, hidx, hshift]

theorem crc16_append_fcsBytes (l : List Byte) : crc16 (l ++ fcsBytes l) = goodFcs := by
  rw [fcsBytes, fcs16, List.append_cons, crc16_append_one, crc16_append_one,
    crc16Update_lowByte_not, crc16Update_highByte_not]
  rfl

/-- Settles O18, by what the two check bytes make of the register. -/
theorem crcResidueIsGoodFcs : Obligations.CrcResidueIsGoodFcs :=
  crc16_append_fcsBytes

end Sys2Proof.Machine
end

section
/-!
PROOFS. The decoder's commands, each by its effect on a ready core (41_decoder.md sections 2 to 4):
bytes that deliver nothing, the delivery by the answers of the consumer and the pool, and `DEC_END`.
-/
namespace Sys2Proof.Machine

variable {s t : State}

/-! ## DEC_RESET, DEC_END and the bytes that deliver nothing -/

/-- Settles O20, by the one write of the reset procedure. -/
theorem decResetCompletes : Obligations.DecResetCompletes := by
  unfold Obligations.DecResetCompletes
  exact ⟨decode_encode .decReset, fun s hr h8 => (exec_decReset hr).trans (resetAndAck_of_lt h8)⟩

/-- Settles O30: the response carries the status the command clears. -/
theorem decEndCompletes : Obligations.DecEndCompletes := by
  unfold Obligations.DecEndCompletes
  exact ⟨decode_encode .decEnd, fun s hr => exec_decEnd hr⟩

/-- Settles O21: the reset procedure runs, whichever condition of a well-formed frame fails. -/
theorem flagDropsMalformedFrame : Obligations.FlagDropsMalformedFrame := by
  unfold Obligations.FlagDropsMalformedFrame
  intro s hr h8 hw
  exact (exec_decByte hr flag).trans ((consumeByte_flag_bad hw).trans (resetAndAck_of_lt h8))

/-- Settles O26: discard mode is looked at before everything but `FLAG`. -/
theorem discardModeSkipsByte : Obligations.DiscardModeSkipsByte := by
  unfold Obligations.DiscardModeSkipsByte
  intro s b hr hb hd
  exact (exec_decByte hr b).trans (consumeByte_discard hb hd)

/-- Settles O27: with no escape pending, `ESC` is looked at before the byte is stored. -/
theorem escapeMarkerSetsEsc : Obligations.EscapeMarkerSetsEsc := by
  unfold Obligations.EscapeMarkerSetsEsc
  intro s hr hd he
  exact (exec_decByte hr escByte).trans (consumeByte_marker hd he)

/-- Outside discard mode the byte `b` stands for the byte `v` to store: itself, or after an escape
its un-transformed form (41_decoder.md R150, R153). -/
def StandsFor (s : State) (b v : Byte) : Prop :=
  s.decEsc = true ∧ v = masked b ∨ s.decEsc = false ∧ b ≠ escByte ∧ v = b

theorem setEsc_self {v : Bool} (h : s.decEsc = v) : setEsc s v = s := by
  subst h
  rfl

theorem consumeByte_stores {b v : Byte} (hb : b ≠ flag) (hd : s.decDiscard = false)
    (hv : StandsFor s b v) : consumeByte s b = storeByte (setEsc s false) v := by
  obtain ⟨he, rfl⟩ | ⟨he, hm, rfl⟩ := hv
  · exact consumeByte_escaped hb hd he
  · rw [consumeByte_data hb hd he hm, setEsc_self he]

theorem exists_standsFor {b : Byte} (h : s.decEsc = true ∨ b ≠ escByte) :
    ∃ v, StandsFor s b v := by
  cases he : s.decEsc with
  | true => exact ⟨masked b, .inl ⟨he, rfl⟩⟩
  | false => exact ⟨b, .inr ⟨he, h.resolve_left (by simp [he]), rfl⟩⟩

/-- Settles O28: the byte, whatever it stands for, meets the capacity check. -/
theorem fullBufferEntersDiscard : Obligations.FullBufferEntersDiscard := by
  unfold Obligations.FullBufferEntersDiscard
  intro s b hr hb hd hstored hfull
  obtain ⟨v, hv⟩ := exists_standsFor hstored
  rw [exec_decByte hr, consumeByte_stores hb hd hv]
  exact storeByte_full (s := setEsc s false) v hfull

/-- Settles O29: there is room for the byte `b` stands for. -/
theorem dataByteIsAppended : Obligations.DataByteIsAppended := by
  unfold Obligations.DataByteIsAppended
  intro s b v hr hb hd hv hroom
  rw [exec_decByte hr, consumeByte_stores hb hd hv]
  exact storeByte_room (s := setEsc s false) v hroom

/-! ## A delivery, by the collaborators' answers -/

theorem handOver_deliver (s : State) :
    handOver (deliver s s.decBuf (s.decLen - fcsLen))
      (deliver s s.decBuf (s.decLen - fcsLen)).decBuf (consumerAnswer s) = askingPool s := by
  rw [deliver_decBuf]
  rfl

theorem deliverFrame_accepted (hc : answeredCode (consumerAnswer s) = some 0) :
    deliverFrame s =
      acceptedDelivery (deliver s s.decBuf (s.decLen - fcsLen)) (consumerAnswer s) := by
  simp [deliverFrame, hc]

theorem deliverFrame_granted {h : Nat} (hc : answeredCode (consumerAnswer s) = some 0)
    (hp : poolAnswer (askingPool s) = .ok h) (hg : poolMayGive (askingPool s) h = true) :
    deliverFrame s = resetAndAck (afterAccept s h) := by
  rw [deliverFrame_accepted hc, acceptedDelivery, handOver_deliver, acquire_eq]
  simp only [hp, hg, if_true]
  rfl

theorem deliverFrame_allocFail (hc : answeredCode (consumerAnswer s) = some 0)
    (hp : poolAnswer (askingPool s) = .fail) :
    deliverFrame s =
      .next (raiseFault (emit (poolAnswered (askingPool s)) (.acquire .fail)) .allocFail) := by
  rw [deliverFrame_accepted hc, acceptedDelivery, handOver_deliver, acquire_eq]
  simp only [hp]

theorem deliverFrame_poolSilent (hc : answeredCode (consumerAnswer s) = some 0)
    (hp : poolAnswer (askingPool s) = .silent) :
    deliverFrame s =
      .next { emit (poolAnswered (askingPool s)) (.acquire .silent) with wait := some .pool } := by
  rw [deliverFrame_accepted hc, acceptedDelivery, handOver_deliver, acquire_eq]
  simp only [hp]

theorem deliverFrame_consumerSilent (hc : consumerAnswer s = .silent) :
    deliverFrame s = .next (deliver s s.decBuf (s.decLen - 2)) := by
  simp [deliverFrame, hc, answeredCode, fcsLen]

/-- The state after a rejected delivery, before the reset procedure (41_decoder.md R147). -/
def afterReject (s : State) (c : Code) : State :=
  { deliver s s.decBuf (s.decLen - 2) with decPend := if s.decPend = 0 then c else s.decPend }

theorem deliverFrame_rejected {c : Code} (hc : consumerAnswer s = .code c) (hz : c ≠ 0) :
    deliverFrame s = resetAndAck (afterReject s c) := by
  have hpend : (if (deliver s s.decBuf (s.decLen - 2)).decPend = 0
      then { deliver s s.decBuf (s.decLen - 2) with decPend := c }
      else deliver s s.decBuf (s.decLen - 2)) = afterReject s c := by
    unfold afterReject
    rw [deliver_decPend]
    split
    · rfl
    · rw [← deliver_decPend s s.decBuf (s.decLen - 2)]
  simp only [deliverFrame, hc, answeredCode, if_neg hz, rejectedDelivery]
  exact congrArg resetAndAck hpend

theorem exec_flag_delivers (hr : Ready s) (hw : WellFormedFrame s) :
    exec (.decByte flag) s = deliverFrame s :=
  (exec_decByte hr flag).trans (consumeByte_flag_good hw)

/-- What the consumer is shown, in the offsets of the statements. -/
theorem seenAtDelivery_eq (s : State) (h n : Nat) :
    seenAtDelivery s h n = fbBytes s h 7 (n + 1) := rfl

@[simp] theorem askingPool_trace (s : State) :
    (askingPool s).trace = .deliver s.cfg.instId s.decBuf (s.decLen - 2)
      (fbBytes s s.decBuf 7 (s.decLen - 2 + 1)) (consumerAnswer s) :: s.trace := by
  simp [askingPool, seenAtDelivery_eq]

theorem ready_askingPool (hr : Ready s) (ha : consumerAnswer s ≠ .silent) :
    Ready (askingPool s) := by
  simpa [Ready, askingPool, ha] using hr

/-- The acquisition makes `h` the decoder's buffer; the accepted one has left it (20_memory.md
R77). -/
theorem frameOwner_afterAccept (s : State) (h k : Nat) :
    frameOwner (afterAccept s h) k = if k = h then some .dec
      else if k = s.decBuf then acceptedOwner (consumerAnswer s) else frameOwner s k := by
  have hset : frameOwner (afterAccept s h) k = frameOwner (setFrameOwner (askingPool s) h .dec) k :=
    frameOwner_congr (by simp [afterAccept, afterAcquire]) k
  rw [hset]
  split
  · subst_vars
    exact frameOwner_set_self _ _ _
  · rw [frameOwner_set_ne _ _ ‹_›, frameOwner_askingPool]

/-- The pool gives the accepted buffer out again only if the consumer has given it back. -/
theorem acceptAndRelease_of_poolMayGive (hc : answeredCode (consumerAnswer s) = some 0)
    (hg : poolMayGive (askingPool s) s.decBuf = true) : consumerAnswer s = .acceptAndRelease := by
  obtain ⟨-, hfree⟩ := (poolMayGive_iff _ _).mp hg
  rw [frameOwner_askingPool, if_pos rfl] at hfree
  cases ha : consumerAnswer s with
  | code c => simp [ha, acceptedOwner] at hfree
  | acceptAndRelease => rfl
  | silent => simp [ha, answeredCode] at hc

theorem fbRead_afterDecReset (hlt : tagOffset < s.cfg.bufSize) (k off : Nat) :
    fbRead (afterDecReset s) k off =
      if k = s.decBuf ∧ off = tagOffset then some s.cfg.tagInit else fbRead s k off := by
  split
  · rename_i hk
    obtain ⟨rfl, rfl⟩ := hk
    exact fbRead_tag_afterDecReset s hlt
  · exact sameBytesBut_afterDecReset hlt k off (not_and_or.mp ‹_›)

/-- A fresh buffer holds the tag and nothing else; the delivered one keeps its bytes. -/
theorem fbRead_accepted (hlt : tagOffset < s.cfg.bufSize) (h k off : Nat) :
    fbRead (afterDecReset (afterAccept s h)) k off =
      if k = h then (if off = tagOffset then some s.cfg.tagInit else none)
      else fbRead s k off := by
  rw [fbRead_afterDecReset (by simpa using hlt), fbRead_afterAccept]
  by_cases hk : k = h <;> simp [hk, afterAccept, afterAcquire]

/-- Settles O22, by the state `afterAccept` the reset procedure meets. -/
theorem flagDeliversAcceptedFrame : Obligations.FlagDeliversAcceptedFrame := by
  unfold Obligations.FlagDeliversAcceptedFrame
  intro s h hr h8 hw hc hp hg
  have hrp := ready_askingPool hr (answeredCode_ne_silent hc)
  refine ⟨respond (afterDecReset (afterAccept s h)) .ack, ?_, ?_, rfl, ?_, ⟨rfl, rfl, rfl, rfl⟩,
    ?_, ?_, frameOwner_afterAccept s h, fbRead_accepted h8 h, ?_⟩
  · refine (exec_flag_delivers hr hw).trans ((deliverFrame_granted hc hp hg).trans ?_)
    exact resetAndAck_of_lt (by rwa [afterAccept_cfg])
  · simp [afterAccept, afterAcquire]
  · rintro rfl
    exact acceptAndRelease_of_poolMayGive hc hg
  · simp [afterDecReset, afterAccept, afterAcquire, askingPool]
  · simpa [Ready, afterDecReset, afterAccept, afterAcquire] using hrp
  · simp [SameStaging, SameOutputSide, afterDecReset, afterAccept, afterAcquire, askingPool]

/-- Settles O23, by the state `afterReject` the reset procedure meets. -/
theorem flagDeliversRejectedFrame : Obligations.FlagDeliversRejectedFrame := by
  unfold Obligations.FlagDeliversRejectedFrame
  intro s c hr h8 hw hc hz
  refine ⟨respond (afterDecReset (afterReject s c)) .ack, ?_, ?_, ?_, ⟨rfl, rfl, rfl, rfl⟩, rfl,
    ?_, ?_⟩
  · refine (exec_flag_delivers hr hw).trans ((deliverFrame_rejected hc hz).trans ?_)
    exact resetAndAck_of_lt (by rwa [afterReject, deliver_cfg])
  · simp [afterReject, seenAtDelivery_eq, hc]
  · simp [afterDecReset, afterReject]
  · simpa [Ready, afterDecReset, afterReject, hc] using hr
  · simp [SameStaging, SameOutputSide, afterDecReset, afterReject, tagOffset, hdrRes]

/-- Settles O24: the fault is raised in the state in which the pool was asked. -/
theorem acceptedDeliveryAllocFail : Obligations.AcceptedDeliveryAllocFail := by
  unfold Obligations.AcceptedDeliveryAllocFail
  intro s hr hw hc hp
  obtain ⟨hwait, -⟩ := ready_askingPool hr (answeredCode_ne_silent hc)
  refine ⟨_, (exec_flag_delivers hr hw).trans (deliverFrame_allocFail hc hp), ?_, rfl, ?_, ?_, ?_,
    fun k => ?_, ?_⟩
  · simp
  · simpa using hwait
  · simp [SameDecoder, askingPool]
  · simp
  · exact (frameOwner_congr (by simp) k).trans (frameOwner_askingPool s k)
  · simp [SameStaging, SameOutputSide, askingPool]

/-- Settles O25: the consumer hangs the command at the delivery, the pool after the hand-over. -/
theorem flagHangsWithoutAnswer : Obligations.FlagHangsWithoutAnswer := by
  unfold Obligations.FlagHangsWithoutAnswer
  constructor
  · intro s hr hw hc
    refine ⟨_, (exec_flag_delivers hr hw).trans (deliverFrame_consumerSilent hc), ?_⟩
    simp [SameDecoder, hc, hr.2, seenAtDelivery_eq]
  · intro s hr hw hc hp
    obtain ⟨-, hfault⟩ := ready_askingPool hr (answeredCode_ne_silent hc)
    refine ⟨_, (exec_flag_delivers hr hw).trans (deliverFrame_poolSilent hc hp), rfl, ?_, ?_, ?_,
      ?_, fun k => ?_⟩
    · simp
    · simpa using hfault
    · simp [SameDecoder, askingPool]
    · simp
    · exact (frameOwner_congr (by simp) k).trans (frameOwner_askingPool s k)

/-- Settles O31: `DEC_END` answers what the rejected delivery left in `DEC.pend`. -/
theorem rejectionReachesDecEnd : Obligations.RejectionReachesDecEnd := by
  unfold Obligations.RejectionReachesDecEnd
  intro s c hr h8 hw hc hz
  obtain ⟨t, ht, -, hbuf, -, hpend, hready, -⟩ := flagDeliversRejectedFrame s c hr h8 hw hc hz
  refine ⟨respond { t with decPend := 0 } (.status t.decPend), ?_, hbuf, ?_, rfl⟩
  · simp [runCommands, ht, exec_decEnd hready]
  · simp [hpend]

/-- Settles O32, by the ways a `FLAG` can end: the reset procedure runs last in all but the failed
acquisition. -/
theorem flagResynchronises : Obligations.FlagResynchronises := by
  unfold Obligations.FlagResynchronises
  intro s t hr h hwait
  change exec (.decByte flag) s = .next t at h
  by_cases hw : WellFormedFrame s
  · rw [exec_flag_delivers hr hw] at h
    obtain ⟨k, hc, -, -, -, rfl⟩ | ⟨hc, hp, rfl⟩ | ⟨-, -, rfl⟩ | ⟨c, hc, -, -, rfl⟩ | ⟨hc, rfl⟩ :=
      deliverFrame_cases h
    · obtain ⟨-, hfault⟩ := ready_askingPool hr (answeredCode_ne_silent hc)
      refine .inl ⟨?_, rfl, rfl, rfl, rfl⟩
      simpa [afterDecReset, afterAccept, afterAcquire] using hfault
    · refine .inr ⟨rfl, hw, hc, hp, ?_⟩
      simp [SameDecoder, askingPool]
    · simp at hwait
    · refine .inl ⟨?_, rfl, rfl, rfl, rfl⟩
      simpa [afterDecReset] using hr.2
    · simp [hc] at hwait
  · rw [exec_decByte hr, consumeByte_flag_bad hw] at h
    obtain ⟨-, rfl⟩ := resetAndAck_cases h
    exact .inl ⟨hr.2, rfl, rfl, rfl, rfl⟩

end Sys2Proof.Machine
end

section
/-!
PROOFS. What any command does to the decoder: the encoder's commands leave it alone, `DEC.esc` and
`DEC.discard` exclude each other (10_state.md R39), and a delivery shows the bytes the decoder has
assembled (41_decoder.md R145).
-/
namespace Sys2Proof.Machine

variable {s t : State}

/-! ## The encoder's commands leave the decoder alone -/

/-- The decoder's registers, its buffers and the parties behind them are the same in both states,
and nothing was delivered in between. -/
structure DecoderUntouched (s t : State) : Prop where
  cfg : t.cfg = s.cfg
  decoder : SameDecoder s t
  frameSide : SameFrameSide s t
  deliveries : deliveries t = deliveries s

theorem DecoderUntouched.trans {u : State} (h : DecoderUntouched s t) (h' : DecoderUntouched t u) :
    DecoderUntouched s u := by
  obtain ⟨hc, hd, hf, hdel⟩ := h
  obtain ⟨hc', hd', hf', hdel'⟩ := h'
  refine ⟨hc'.trans hc, ?_, ?_, hdel'.trans hdel⟩
  · simp_all [SameDecoder]
  · simp_all [SameFrameSide]

theorem decoderUntouched_respond (s : State) (r : Response) : DecoderUntouched s (respond s r) :=
  ⟨rfl, ⟨rfl, rfl, rfl, rfl, rfl, rfl⟩, ⟨rfl, rfl, rfl, rfl⟩, rfl⟩

theorem decoderUntouched_clearStaging (s : State) : DecoderUntouched s (clearStaging s) :=
  ⟨rfl, ⟨rfl, rfl, rfl, rfl, rfl, rfl⟩, ⟨rfl, rfl, rfl, rfl⟩, rfl⟩

theorem decoderUntouched_allocatorAsked (s : State) (a : AllocAnswer) :
    DecoderUntouched s (emit (allocatorAnswered s) (.outAlloc a)) where
  cfg := by simp
  decoder := by simp [SameDecoder]
  frameSide := by simp [SameFrameSide]
  deliveries := deliveries_of_other (e := .outAlloc a) rfl (by simp)

theorem decoderUntouched_afterOutAlloc (s : State) (o : Nat) :
    DecoderUntouched s (afterOutAlloc s o) :=
  { decoderUntouched_allocatorAsked s (.ok o) with }

theorem decoderUntouched_emitFrame (s : State) (o : Nat) (ovf : Bool) (frame : List Byte) :
    DecoderUntouched s (emitFrame s o ovf frame) := by
  unfold emitFrame
  dsimp only
  split <;> exact ⟨rfl, ⟨rfl, rfl, rfl, rfl, rfl, rfl⟩, ⟨rfl, rfl, rfl, rfl⟩, rfl⟩

theorem decoderUntouched_encodeFrame {ovf : Bool} {n : Nat} {frame : List Byte}
    (h : encodeFrame s ovf n frame = .next t) : DecoderUntouched s t := by
  obtain ⟨-, -, rfl⟩ | ⟨-, ⟨o, -, -, rfl⟩ | ⟨-, rfl⟩ | ⟨-, rfl⟩⟩ := encodeFrame_cases h
  · exact decoderUntouched_respond s _
  · exact (decoderUntouched_afterOutAlloc s o).trans (decoderUntouched_emitFrame _ o ovf frame)
  · exact { decoderUntouched_allocatorAsked s .fail with }
  · exact { decoderUntouched_allocatorAsked s .silent with }

theorem decoderUntouched_encLoad (hr : Ready s) {b : Byte} (h : exec (.encLoad b) s = .next t) :
    DecoderUntouched s t := by
  rw [exec_encLoad hr] at h
  split at h <;> cases h <;>
    exact ⟨rfl, ⟨rfl, rfl, rfl, rfl, rfl, rfl⟩, ⟨rfl, rfl, rfl, rfl⟩, rfl⟩

/-! ## Flag exclusivity -/

/-- `DEC.esc` and `DEC.discard` are not both set (10_state.md R39). -/
def OneFlag (s : State) : Prop := ¬ (s.decEsc = true ∧ s.decDiscard = true)

theorem oneFlag_of_noEsc (h : s.decEsc = false) : OneFlag s := by simp [OneFlag, h]

theorem OneFlag.of_eq (h : OneFlag s) (he : t.decEsc = s.decEsc)
    (hd : t.decDiscard = s.decDiscard) : OneFlag t := by
  rwa [OneFlag, he, hd]

theorem storeByte_decEsc {b : Byte} (h : storeByte s b = .next t) : t.decEsc = s.decEsc := by
  obtain ⟨-, rfl⟩ | ⟨-, -, rfl⟩ := storeByte_cases h <;> rfl

/-- No well-formed frame is mid-escape, and no delivery begins an escape. -/
theorem deliverFrame_decEsc (he : s.decEsc = false) (h : deliverFrame s = .next t) :
    t.decEsc = false := by
  obtain ⟨k, -, -, -, -, rfl⟩ | ⟨-, -, rfl⟩ | ⟨-, -, rfl⟩ | ⟨c, -, -, -, rfl⟩ | ⟨-, rfl⟩ :=
    deliverFrame_cases h
  · rfl
  · simpa [askingPool] using he
  · simpa [askingPool] using he
  · rfl
  · simpa using he

/-- An escape begins outside discard mode alone, and discard mode outside an escape. -/
theorem oneFlag_consumeByte (hs : OneFlag s) {b : Byte} (h : consumeByte s b = .next t) :
    OneFlag t := by
  obtain ⟨-, -, -, rfl⟩ | ⟨-, ⟨he, -⟩, h⟩ | ⟨-, -, rfl⟩ | ⟨-, -, -, h⟩ | ⟨-, hd, -, rfl⟩ |
    ⟨-, -, -, he, h⟩ := consumeByte_cases h
  · exact oneFlag_of_noEsc rfl
  · exact oneFlag_of_noEsc (deliverFrame_decEsc he h)
  · exact hs
  · exact oneFlag_of_noEsc (storeByte_decEsc h)
  · simp [OneFlag, hd]
  · exact oneFlag_of_noEsc ((storeByte_decEsc h).trans he)

theorem oneFlag_of_decoderUntouched (hs : OneFlag s) (h : DecoderUntouched s t) : OneFlag t := by
  obtain ⟨-, -, he, hd, -⟩ := h.decoder
  exact hs.of_eq he hd

theorem oneFlag_exec (hs : OneFlag s) {i : Instr} (h : exec i s = .next t) : OneFlag t := by
  obtain hr | ⟨-, -, rfl⟩ := exec_next h
  · cases i with
    | decReset =>
      obtain ⟨-, rfl⟩ := resetAndAck_cases (exec_decReset hr ▸ h)
      exact oneFlag_of_noEsc rfl
    | decByte b => exact oneFlag_consumeByte hs (exec_decByte hr b ▸ h)
    | decEnd => rw [exec_decEnd hr] at h; cases h; exact hs
    | encClear => rw [exec_encClear hr] at h; cases h; exact hs
    | encLoad b => exact oneFlag_of_decoderUntouched hs (decoderUntouched_encLoad hr h)
    | encFrame =>
      exact oneFlag_of_decoderUntouched (s := clearStaging s) hs
        (decoderUntouched_encodeFrame (exec_encFrame hr ▸ h))
  · exact hs

theorem oneFlag_runWord (hs : OneFlag s) {w : Word} (h : runWord w s = .next t) : OneFlag t := by
  unfold runWord at h
  split at h
  · exact oneFlag_exec hs h
  · obtain ⟨-, h⟩ | ⟨-, -, rfl⟩ := runCommand_cases h
    · cases h
      exact hs
    · exact hs

/-- The ways a hardware reset can answer a next state (70_reset_and_hazards.md R270, R272). -/
theorem hardwareReset_cases (h : hardwareReset s = .next t) :
    (∃ k, poolAnswer (powerOn s) = .ok k ∧ poolMayGive (powerOn s) k = true ∧
      t = afterDecReset { afterAcquire (powerOn s) k with decBuf := k }) ∨
    (poolAnswer (powerOn s) = .fail ∧
      t = { emit (poolAnswered (powerOn s)) (.acquire .fail) with fault := .allocFail }) ∨
    (poolAnswer (powerOn s) = .silent ∧
      t = { emit (poolAnswered (powerOn s)) (.acquire .silent) with wait := some .pool }) := by
  unfold hardwareReset at h
  rw [acquire_eq] at h
  cases hp : poolAnswer (powerOn s) with
  | ok k =>
    by_cases hg : poolMayGive (powerOn s) k = true
    · simp only [hp, if_pos hg] at h
      obtain ⟨-, rfl⟩ := decReset_cases h
      exact .inl ⟨k, rfl, hg, rfl⟩
    · simp [hp, hg] at h
  | fail =>
    simp only [hp] at h
    cases h
    exact .inr (.inl ⟨rfl, rfl⟩)
  | silent =>
    simp only [hp] at h
    cases h
    exact .inr (.inr ⟨rfl, rfl⟩)

/-- What an action of another party leaves of the decoder's flags: a hardware reset clears them, and
nobody else reaches them. -/
theorem act_decoderFlags {a : Action} (h : act a s = .next t) :
    t.decEsc = false ∨ (t.decEsc = s.decEsc ∧ t.decDiscard = s.decDiscard) := by
  cases a with
  | hardwareReset =>
    obtain ⟨k, -, -, rfl⟩ | ⟨-, rfl⟩ | ⟨-, rfl⟩ := hardwareReset_cases h
    · exact .inl rfl
    · exact .inr (by simp)
    · exact .inr (by simp)
  | consumerWrite k off v =>
    change consumerWrite k off v s = .next t at h
    unfold consumerWrite at h
    split at h
    · obtain ⟨-, rfl⟩ := bufWrite_cases h
      exact .inr ⟨rfl, rfl⟩
    · cases h
  | consumerRelease k =>
    change consumerRelease k s = .next t at h
    unfold consumerRelease at h
    split at h <;> cases h
    exact .inr ⟨rfl, rfl⟩
  | hostRelease o =>
    change hostRelease o s = .next t at h
    unfold hostRelease at h
    split at h <;> cases h
    exact .inr ⟨rfl, rfl⟩

theorem oneFlag_act (hs : OneFlag s) {a : Action} (h : act a s = .next t) : OneFlag t := by
  obtain he | ⟨he, hd⟩ := act_decoderFlags h
  · exact oneFlag_of_noEsc he
  · exact hs.of_eq he hd

/-- Settles O55, by the kinds of input a step can meet. -/
theorem flagExclusivity : Obligations.FlagExclusivity := by
  unfold Obligations.FlagExclusivity
  refine ⟨by decide, fun s t hs h => ?_⟩
  unfold step at h
  split at h
  · cases h
    exact hs
  · exact oneFlag_runWord (s := inputTaken s) hs h
  · exact oneFlag_act (s := inputTaken s) hs h

/-! ## What a command delivers -/

theorem deliveries_poolAsked (s : State) (a : AllocAnswer) :
    deliveries (emit (poolAnswered s) (.acquire a)) = deliveries s :=
  deliveries_of_other (e := .acquire a) rfl (by simp)

/-- However a delivery ends, it is the one the command makes. -/
theorem deliverFrame_deliveries (h : deliverFrame s = .next t) :
    deliveries t = .deliver s.cfg.instId s.decBuf (s.decLen - 2)
      (seenAtDelivery s s.decBuf (s.decLen - 2)) (consumerAnswer s) :: deliveries s := by
  rw [← deliveries_deliver]
  obtain ⟨k, -, -, -, -, rfl⟩ | ⟨-, -, rfl⟩ | ⟨-, -, rfl⟩ | ⟨c, -, -, -, rfl⟩ | ⟨-, rfl⟩ :=
    deliverFrame_cases h
  · rw [deliveries_respond, deliveries_afterDecReset, deliveries_afterAccept, deliveries_askingPool]
  · rw [deliveries_raiseFault, deliveries_poolAsked, deliveries_askingPool]
  · rw [← deliveries_askingPool, ← deliveries_poolAsked (askingPool s) .silent]
    exact deliveries_congr rfl
  · rw [deliveries_respond, deliveries_afterDecReset]
    exact deliveries_congr rfl
  · rfl

theorem storeByte_deliveries {b : Byte} (h : storeByte s b = .next t) :
    deliveries t = deliveries s := by
  obtain ⟨-, rfl⟩ | ⟨-, -, rfl⟩ := storeByte_cases h <;> rfl

/-- Only a `FLAG` that meets a well-formed frame delivers (41_decoder.md R144, R145). -/
theorem consumeByte_deliveries {b : Byte} (h : consumeByte s b = .next t) :
    deliveries t = deliveries s ∨ (b = flag ∧ WellFormedFrame s ∧ deliverFrame s = .next t) := by
  obtain ⟨-, -, -, rfl⟩ | hdeliver | ⟨-, -, rfl⟩ | ⟨-, -, -, h⟩ | ⟨-, -, -, rfl⟩ |
    ⟨-, -, -, -, h⟩ := consumeByte_cases h
  · exact .inl rfl
  · exact .inr hdeliver
  · exact .inl rfl
  · exact .inl (storeByte_deliveries (s := setEsc s false) h)
  · exact .inl rfl
  · exact .inl (storeByte_deliveries h)

theorem exec_deliveries {i : Instr} (h : exec i s = .next t) :
    deliveries t = deliveries s ∨
      (Ready s ∧ i = .decByte flag ∧ WellFormedFrame s ∧ deliverFrame s = .next t) := by
  obtain hr | ⟨-, -, rfl⟩ := exec_next h
  · cases i with
    | decReset =>
      obtain ⟨-, rfl⟩ := resetAndAck_cases (exec_decReset hr ▸ h)
      exact .inl rfl
    | decByte b =>
      obtain hsame | ⟨rfl, hw, hd⟩ := consumeByte_deliveries (exec_decByte hr b ▸ h)
      · exact .inl hsame
      · exact .inr ⟨hr, rfl, hw, hd⟩
    | decEnd => rw [exec_decEnd hr] at h; cases h; exact .inl rfl
    | encClear => rw [exec_encClear hr] at h; cases h; exact .inl rfl
    | encLoad b => exact .inl (decoderUntouched_encLoad hr h).deliveries
    | encFrame =>
      rw [exec_encFrame hr] at h
      exact .inl (decoderUntouched_encodeFrame (s := clearStaging s) h).deliveries
  · exact .inl rfl

/-! ## What the consumer is shown -/

@[simp] theorem length_fbBytes (s : State) (h off n : Nat) : (fbBytes s h off n).length = n := by
  simp [fbBytes]

theorem fbBytes_succ (s : State) (h off n : Nat) :
    fbBytes s h off (n + 1) = fbRead s h off :: fbBytes s h (off + 1) n := by
  simp [fbBytes, List.range_succ_eq_map, Nat.add_assoc, Nat.add_comm 1]

theorem take_fbBytes (s : State) (h off : Nat) {m n : Nat} (hmn : m ≤ n) :
    (fbBytes s h off n).take m = fbBytes s h off m := by
  rw [fbBytes, ← List.map_take, List.take_range, min_eq_left hmn, fbBytes]

/-- A delivery of all assembled bytes but the last ones shows the tag and those bytes. -/
theorem seenAtDelivery_of_assembled {h : Nat} {c : Byte} {frame rest : List Byte}
    (htag : fbRead s h tagOffset = some c)
    (hbytes : fbBytes s h hdrRes (frame ++ rest).length = (frame ++ rest).map some) :
    seenAtDelivery s h frame.length = some c :: frame.map some := by
  have hframe : fbBytes s h hdrRes frame.length = frame.map some := by
    rw [← take_fbBytes s h hdrRes (n := (frame ++ rest).length) (by simp), hbytes]
    simp
  rw [seenAtDelivery, fbBytes_succ, htag]
  exact congrArg _ hframe

theorem exists_append_two {l : List Byte} (h : 2 ≤ l.length) :
    ∃ (frame : List Byte) (lo hi : Byte), l = frame ++ [lo, hi] := by
  obtain ⟨lo, hi, hlast⟩ := List.length_eq_two.mp
    (show (l.drop (l.length - 2)).length = 2 by rw [List.length_drop]; omega)
  exact ⟨l.take (l.length - 2), lo, hi, by rw [← hlast, List.take_append_drop]⟩

/-- Settles O38: the invariant says what stands in the buffer, a well-formed frame what `DEC.crc`
is. -/
theorem deliveredFrameHasGoodResidue : Obligations.DeliveredFrameHasGoodResidue := by
  unfold Obligations.DeliveredFrameHasGoodResidue
  intro i s t hs h
  obtain hsame | ⟨hr, rfl, ⟨-, -, hlen, hgood⟩, hd⟩ := exec_deliveries h
  · exact .inl hsame
  have howned := hs.bufOwned (by simp [hr.2]) (by simp [hr.1])
  obtain ⟨l, hbytes, hcrc⟩ := hs.assembled howned
  have hl : s.decLen = l.length := by simpa using congrArg List.length hbytes
  obtain ⟨frame, lo, hi, rfl⟩ := exists_append_two (l := l) (by omega)
  have hlen2 : s.decLen = frame.length + 2 := by simpa using hl
  refine .inr ⟨frame, lo, hi, consumerAnswer s, rfl, by omega, hlen2, hbytes, hgood,
    hcrc.symm.trans hgood, ?_⟩
  have hseen := seenAtDelivery_of_assembled (hs.tagSet howned) (hl ▸ hbytes)
  rw [deliverFrame_deliveries hd, hlen2, Nat.add_sub_cancel, hseen]

end Sys2Proof.Machine
end

section
/-!
PROOFS. Chunking invariance (41_decoder.md R162): from two states that differ in the pending status
and the responses alone a byte does the same, `DEC_END` leaves such a pair, and so a run depends on
the bytes it is fed alone.
-/
namespace Sys2Proof.Machine

variable {s t u : State}

/-! ## A state without its split into calls -/

@[simp] theorem unchunked_respond (s : State) (r : Response) :
    unchunked (respond s r) = unchunked s := rfl

@[simp] theorem unchunked_acquire (s : State) (a : AllocAnswer) :
    unchunked (emit s (.acquire a)) = unchunked s := rfl

@[simp] theorem unchunked_raiseFault (s : State) (c : FaultCode) :
    unchunked (raiseFault s c) = { unchunked s with fault := c } := rfl

@[simp] theorem unchunked_setEsc (s : State) (v : Bool) :
    unchunked (setEsc s v) = setEsc (unchunked s) v := rfl

@[simp] theorem unchunked_setDiscard (s : State) (v : Bool) :
    unchunked (setDiscard s v) = setDiscard (unchunked s) v := rfl

@[simp] theorem unchunked_afterDecReset (s : State) :
    unchunked (afterDecReset s) = afterDecReset (unchunked s) := rfl

@[simp] theorem unchunked_afterAppend (s : State) (b : Byte) :
    unchunked (afterAppend s b) = afterAppend (unchunked s) b := rfl

@[simp] theorem unchunked_consumerAnswered (s : State) :
    unchunked (consumerAnswered s) = consumerAnswered (unchunked s) := by
  cases hq : s.codes <;> simp [unchunked, consumerAnswered, deliveries, hq]

@[simp] theorem unchunked_poolAnswered (s : State) :
    unchunked (poolAnswered s) = poolAnswered (unchunked s) := by
  cases hq : s.acquires <;> simp [unchunked, poolAnswered, deliveries, hq]

@[simp] theorem unchunked_handOver (s : State) (h : Nat) (a : ConsumerAnswer) :
    unchunked (handOver s h a) = handOver (unchunked s) h a := by
  cases a <;> rfl

@[simp] theorem unchunked_deliver (s : State) (h n : Nat) :
    unchunked (deliver s h n) = deliver (unchunked s) h n := by
  have hsent := congrArg (emit · (.deliver s.cfg.instId h n (seenAtDelivery s h n)
    (consumerAnswer s))) (unchunked_consumerAnswered s)
  have hanswer : consumerAnswer (unchunked s) = consumerAnswer s := rfl
  unfold deliver
  rw [hanswer]
  generalize consumerAnswer s = a at hsent ⊢
  cases a with
  | code c => exact hsent
  | acceptAndRelease => exact hsent
  | silent => exact congrArg (fun v : State => { v with wait := some .consumer }) hsent

@[simp] theorem unchunked_askingPool (s : State) :
    unchunked (askingPool s) = askingPool (unchunked s) :=
  (unchunked_handOver _ _ _).trans (by rw [unchunked_deliver]; rfl)

/-- What a reading that does not look at the split into calls gives in two states alike but for
it. -/
theorem reading_eq {α : Type} (f : State → α) (hu : unchunked u = unchunked s)
    (hf : ∀ v, f (unchunked v) = f v := by intro; rfl) : f u = f s := by
  rw [← hf u, hu, hf]

/-- Buffer `h` becomes the decoder's, its bytes unspecified (41_decoder.md R146, 20_memory.md
R65). -/
def takeBuffer (s : State) (h : Nat) : State :=
  { setFrameOwner s h .dec with
    fb := s.fb.forget (fbAddr s.cfg h 0) s.cfg.bufSize, decBuf := h }

theorem afterAccept_eq_takeBuffer (s : State) (h : Nat) :
    afterAccept s h = takeBuffer (emit (poolAnswered (askingPool s)) (.acquire (.ok h))) h := by
  simp [afterAccept, afterAcquire, takeBuffer]

@[simp] theorem unchunked_takeBuffer (s : State) (h : Nat) :
    unchunked (takeBuffer s h) = takeBuffer (unchunked s) h := rfl

@[simp] theorem unchunked_afterReject (s : State) (c : Code) :
    unchunked (afterReject s c) = unchunked (deliver s s.decBuf (s.decLen - 2)) := rfl

/-! ## One byte from two states -/

/-- The result is a next state that is `t` but for the split into calls. -/
def EndsLike (r : Result) (t : State) : Prop := ∃ v, r = .next v ∧ unchunked v = unchunked t

theorem storeByte_endsLike (hu : unchunked u = unchunked s) {b : Byte}
    (h : storeByte s b = .next t) : EndsLike (storeByte u b) t := by
  have hcfg : u.cfg = s.cfg := reading_eq State.cfg hu
  have hlen : u.decLen = s.decLen := reading_eq State.decLen hu
  obtain ⟨hfull, rfl⟩ | ⟨hne, hlt, rfl⟩ := storeByte_cases h
  · exact ⟨_, storeByte_full b (by rwa [hcfg, hlen]), by simp [hu]⟩
  · have hroom : u.decLen < u.cfg.cap := by
      rw [hcfg, hlen]
      simp only [Params.cap] at hne ⊢
      omega
    exact ⟨_, storeByte_room b hroom, by simp [hu]⟩

theorem resetAndAck_endsLike (hu : unchunked u = unchunked s) (hlt : tagOffset < s.cfg.bufSize) :
    EndsLike (resetAndAck u) (respond (afterDecReset s) .ack) := by
  have hcfg : u.cfg = s.cfg := reading_eq State.cfg hu
  exact ⟨_, resetAndAck_of_lt (by rwa [hcfg]), by simp [hu]⟩

/-- The collaborators see none of the difference, so they answer the same. -/
theorem deliverFrame_endsLike (hu : unchunked u = unchunked s) (h : deliverFrame s = .next t) :
    EndsLike (deliverFrame u) t := by
  have hanswer : consumerAnswer u = consumerAnswer s := reading_eq consumerAnswer hu
  have hbuf : u.decBuf = s.decBuf := reading_eq State.decBuf hu
  have hlen : u.decLen = s.decLen := reading_eq State.decLen hu
  have hask : unchunked (askingPool u) = unchunked (askingPool s) := by simp [hu]
  have hpool : poolAnswer (askingPool u) = poolAnswer (askingPool s) := reading_eq poolAnswer hask
  have hgive : ∀ k, poolMayGive (askingPool u) k = poolMayGive (askingPool s) k :=
    fun k => reading_eq (poolMayGive · k) hask
  obtain ⟨k, hc, hp, hg, hlt, rfl⟩ | ⟨hc, hp, rfl⟩ | ⟨hc, hp, rfl⟩ | ⟨c, hc, hz, hlt, rfl⟩ |
    ⟨hc, rfl⟩ := deliverFrame_cases h <;> rw [← hanswer] at hc
  · rw [deliverFrame_granted hc (hpool.trans hp) ((hgive k).trans hg)]
    refine resetAndAck_endsLike ?_ (by rwa [afterAccept_cfg])
    simp [afterAccept_eq_takeBuffer, hu]
  · exact ⟨_, deliverFrame_allocFail hc (hpool.trans hp), by simp [hu]⟩
  · refine ⟨_, deliverFrame_poolSilent hc (hpool.trans hp), ?_⟩
    have hasked : unchunked (emit (poolAnswered (askingPool u)) (.acquire .silent)) =
        unchunked (emit (poolAnswered (askingPool s)) (.acquire .silent)) := by simp [hu]
    exact congrArg (fun v : State => { v with wait := some .pool }) hasked
  · rw [deliverFrame_rejected hc hz]
    exact resetAndAck_endsLike (s := afterReject s c) (by simp [hu, hbuf, hlen])
      (by rwa [afterReject, deliver_cfg])
  · exact ⟨_, deliverFrame_consumerSilent hc, by simp [hu, hbuf, hlen]⟩

theorem consumeByte_endsLike (hu : unchunked u = unchunked s) {b : Byte}
    (h : consumeByte s b = .next t) : EndsLike (consumeByte u b) t := by
  have hwf : WellFormedFrame u ↔ WellFormedFrame s := iff_of_eq (reading_eq WellFormedFrame hu)
  have hdis : u.decDiscard = s.decDiscard := reading_eq State.decDiscard hu
  have hesc : u.decEsc = s.decEsc := reading_eq State.decEsc hu
  obtain ⟨rfl, hw, hlt, rfl⟩ | ⟨rfl, hw, h⟩ | ⟨hb, hd, rfl⟩ | ⟨hb, hd, he, h⟩ |
    ⟨rfl, hd, he, rfl⟩ | ⟨hb, hm, hd, he, h⟩ := consumeByte_cases h
  · rw [consumeByte_flag_bad (mt hwf.mp hw)]
    exact resetAndAck_endsLike hu hlt
  · rw [consumeByte_flag_good (hwf.mpr hw)]
    exact deliverFrame_endsLike hu h
  · exact ⟨_, consumeByte_discard hb (hdis.trans hd), hu⟩
  · rw [consumeByte_escaped hb (hdis.trans hd) (hesc.trans he)]
    exact storeByte_endsLike (by simp [hu]) h
  · exact ⟨_, consumeByte_marker (hdis.trans hd) (hesc.trans he), by simp [hu]⟩
  · rw [consumeByte_data hb (hdis.trans hd) (hesc.trans he) hm]
    exact storeByte_endsLike hu h

theorem exec_decByte_endsLike (hu : unchunked u = unchunked s) {b : Byte}
    (h : exec (.decByte b) s = .next t) : EndsLike (exec (.decByte b) u) t := by
  have hwait : u.wait = s.wait := reading_eq State.wait hu
  have hfault : u.fault = s.fault := reading_eq State.fault hu
  obtain hr | ⟨hw, hf, rfl⟩ := exec_next h
  · rw [exec_decByte (s := u) ⟨hwait.trans hr.1, hfault.trans hr.2⟩]
    exact consumeByte_endsLike hu (exec_decByte hr b ▸ h)
  · exact ⟨_, exec_faulted (hwait.trans hw) (hfault ▸ hf) _, hu⟩

/-- On a core that is not hung, `DEC_END` is but a place where the stream is split. -/
theorem exec_decEnd_endsLike (hw : s.wait = none) : EndsLike (exec .decEnd s) s := by
  by_cases hf : s.fault = .none
  · exact ⟨_, exec_decEnd ⟨hw, hf⟩, rfl⟩
  · exact ⟨_, exec_faulted hw hf _, rfl⟩

theorem wait_eq_none_of_exec {i : Instr} (h : exec i s = .next t) : s.wait = none := by
  obtain hr | ⟨hw, -, -⟩ := exec_next h
  · exact hr.1
  · exact hw

/-! ## Runs -/

/-- The commands run to an end with none outstanding, in the state `x` but for the split into
calls. -/
def RunEndsAs (is : List Instr) (s x : State) : Prop :=
  ∃ t, runCommands is s = .next t ∧ t.wait = none ∧ unchunked t = x

theorem runEndsAs_nil {x : State} : RunEndsAs [] s x ↔ s.wait = none ∧ unchunked s = x := by
  simp [RunEndsAs, runCommands]

theorem runEndsAs_cons {i : Instr} {is : List Instr} {x : State} :
    RunEndsAs (i :: is) s x ↔ ∃ t, exec i s = .next t ∧ RunEndsAs is t x := by
  constructor
  · rintro ⟨t, hrun, hend⟩
    obtain ⟨v, hv, hrest⟩ := andThen_next hrun
    exact ⟨v, hv, t, hrest, hend⟩
  · rintro ⟨v, hv, t, hrest, hend⟩
    exact ⟨t, by rw [runCommands, hv, andThen_of_next, hrest], hend⟩

/-- A hung core ends no run. -/
theorem RunEndsAs.wait_eq_none {is : List Instr} {x : State} (h : RunEndsAs is s x) :
    s.wait = none := by
  cases is with
  | nil => exact (runEndsAs_nil.mp h).1
  | cons i is =>
    obtain ⟨t, ht, -⟩ := runEndsAs_cons.mp h
    exact wait_eq_none_of_exec ht

/-- A run of decode commands ends as the run of its bytes alone does. -/
theorem runEndsAs_iff_fedBytes {is : List Instr} {x : State}
    (his : is.all isDecodeCommand = true) (hu : unchunked u = unchunked s) :
    RunEndsAs is s x ↔ RunEndsAs ((fedBytes is).map .decByte) u x := by
  induction is generalizing s u with
  | nil =>
    have hwait : u.wait = s.wait := reading_eq State.wait hu
    simp only [fedBytes, List.map_nil, runEndsAs_nil, hu, hwait]
  | cons i is ih =>
    obtain ⟨hi, his⟩ : isDecodeCommand i = true ∧ is.all isDecodeCommand = true := by
      simpa using his
    cases i with
    | decByte b =>
      simp only [fedBytes, List.map_cons, runEndsAs_cons]
      constructor
      · rintro ⟨t, ht, hend⟩
        obtain ⟨v, hv, hvt⟩ := exec_decByte_endsLike hu ht
        exact ⟨v, hv, (ih his hvt).mp hend⟩
      · rintro ⟨v, hv, hend⟩
        obtain ⟨t, ht, htv⟩ := exec_decByte_endsLike hu.symm hv
        exact ⟨t, ht, (ih his htv.symm).mpr hend⟩
    | decEnd =>
      simp only [fedBytes, runEndsAs_cons]
      constructor
      · rintro ⟨t, ht, hend⟩
        obtain ⟨t', ht', hts⟩ := exec_decEnd_endsLike (wait_eq_none_of_exec ht)
        cases ht.symm.trans ht'
        exact (ih his (hu.trans hts.symm)).mp hend
      · intro hend
        have hwait : u.wait = s.wait := reading_eq State.wait hu
        obtain ⟨t, ht, hts⟩ := exec_decEnd_endsLike (hwait.symm.trans hend.wait_eq_none)
        exact ⟨t, ht, (ih his (hu.trans hts.symm)).mpr hend⟩
    | decReset => cases hi
    | encClear => cases hi
    | encLoad b => cases hi
    | encFrame => cases hi

/-- Settles O39: both runs end as the run of the bytes they feed. -/
theorem chunkingInvariance : Obligations.ChunkingInvariance := by
  unfold Obligations.ChunkingInvariance
  intro xs ys s t hxs hys hbytes _ hrun hwait
  have hx : RunEndsAs xs s (unchunked t) := ⟨t, hrun, hwait, rfl⟩
  rw [runEndsAs_iff_fedBytes hxs rfl, hbytes, ← runEndsAs_iff_fedBytes hys rfl] at hx
  obtain ⟨u, hu, -, heq⟩ := hx
  exact ⟨u, hu, heq⟩

end Sys2Proof.Machine
end

section
/-!
PROOFS. The round trip (41_decoder.md R163): what an `ENCODE` that answers `OK` leaves in the output
buffer, what the decoder assembles from stuffed bytes, and the two together.
-/
namespace Sys2Proof.Machine

variable {s t u : State}

theorem runCommands_append (is js : List Instr) (s : State) :
    runCommands (is ++ js) s = andThen (runCommands is s) (runCommands js) := by
  induction is generalizing s with
  | nil => rfl
  | cons i is ih =>
    simp only [List.cons_append, runCommands]
    cases exec i s with
    | next v => exact ih v
    | fault e => rfl
    | refused e => rfl

/-! ## Staging a frame -/

/-- From `s` the staging was emptied and the bytes `l` were loaded: it holds them, unless it
overflowed (42_encoder.md R191, R192). -/
structure Staged (s : State) (l : List Byte) (u : State) : Prop where
  ready : Ready u
  untouched : DecoderUntouched s u
  size : u.encIn.length = u.cfg.encInMax
  holds : u.encOvf = false → u.encN = l.length ∧ stagedFrame u = l

theorem take_set_append {α : Type} (l : List α) {n : Nat} (x : α) (hn : n < l.length) :
    (l.set n x).take (n + 1) = l.take n ++ [x] := by
  rw [List.take_succ_eq_append_getElem (by simpa using hn), List.take_set_of_le le_rfl,
    List.getElem_set_self]

theorem staged_encLoad {l : List Byte} (hu : Staged s l u) {b : Byte}
    (h : exec (.encLoad b) u = .next t) : Staged s (l ++ [b]) t := by
  have huntouched := hu.untouched.trans (decoderUntouched_encLoad hu.ready h)
  rw [exec_encLoad hu.ready] at h
  split at h
  · rename_i hroom
    cases h
    refine ⟨hu.ready, huntouched, by simpa using hu.size, fun hovf => ?_⟩
    obtain ⟨hn, hframe⟩ := hu.holds hovf
    refine ⟨by simp [hn], ?_⟩
    rw [← hframe]
    exact take_set_append u.encIn b (hu.size ▸ hroom)
  · cases h
    exact ⟨hu.ready, huntouched, hu.size, nofun⟩

theorem staged_encLoads {bytes l : List Byte} (hu : Staged s l u)
    (h : runCommands (bytes.map .encLoad) u = .next t) : Staged s (l ++ bytes) t := by
  induction bytes generalizing l u with
  | nil =>
    cases h
    simpa using hu
  | cons b bytes ih =>
    obtain ⟨v, hv, hrest⟩ := andThen_next h
    simpa using ih (staged_encLoad hu hv) hrest

/-! ## Encoding it -/

theorem map_range_getElem? {α : Type} (l : List α) :
    (List.range l.length).map (l[·]?) = l.map some := by
  apply List.ext_getElem <;> simp

/-- The output side when all wire bytes of a frame have been given to `emit` (42_encoder.md
R193). -/
def emittedWire (s : State) (o : Nat) (frame : List Byte) : Output :=
  emitBytes s.cfg o { mem := s.ob, k := 0, full := false } (wireBytes frame)

/-- The ways the emitting can end (42_encoder.md R201, R202). -/
theorem emitFrame_cases (s : State) (o : Nat) (ovf : Bool) (frame : List Byte) :
    (∃ m, emitFrame s o ovf frame = messageTooLarge { s with ob := m } o) ∨
    ((emittedWire s o frame).full = false ∧ ovf = false ∧ emitFrame s o ovf frame =
      wireFrameReady { s with ob := (emittedWire s o frame).mem } o (emittedWire s o frame).k) := by
  cases ovf with
  | true => exact .inl ⟨_, rfl⟩
  | false =>
    cases hfull : (emittedWire s o frame).full with
    | true => exact .inl ⟨_, if_pos hfull⟩
    | false =>
      have hend : ¬ (false || (emittedWire s o frame).full) = true := by simp [hfull]
      exact .inr ⟨rfl, rfl, if_neg hend⟩

theorem emittedWire_fits {o : Nat} {frame : List Byte} (h : (emittedWire s o frame).full = false) :
    (wireBytes frame).length ≤ s.cfg.outCap := by
  have hfull := emitBytes_full_iff s.cfg o (wireBytes frame) ⟨s.ob, 0, false⟩ rfl (Nat.zero_le _)
  by_contra hlong
  rw [emittedWire, hfull.mpr (by simpa using hlong)] at h
  cases h

theorem emittedWire_k {o : Nat} {frame : List Byte} (h : (wireBytes frame).length ≤ s.cfg.outCap) :
    (emittedWire s o frame).k = (wireBytes frame).length :=
  (emitBytes_k s.cfg o (wireBytes frame) ⟨s.ob, 0, false⟩ rfl (by simpa using h)).trans
    (Nat.zero_add _)

/-- The host reads the wire form from the start of the buffer on (20_memory.md R67). -/
theorem obRead_emittedWire {o : Nat} {frame : List Byte}
    (h : (wireBytes frame).length ≤ s.cfg.outCap) :
    (List.range (wireBytes frame).length).map
      (obRead { s with ob := (emittedWire s o frame).mem } o) = (wireBytes frame).map some := by
  rw [← map_range_getElem? (wireBytes frame)]
  refine List.map_congr_left fun i hi => ?_
  have hi := List.mem_range.mp hi
  have hread := emitBytes_read s.cfg o (wireBytes frame) ⟨s.ob, 0, false⟩ rfl
    (by simpa using h) i hi
  rw [Nat.zero_add] at hread
  exact (if_pos (hi.trans_le h)).trans hread

/-- Only a frame whose wire form was emitted whole answers `OK`. -/
theorem emitFrame_ok {o k len : Nat} {ovf : Bool} {frame : List Byte} (hr : Ready s)
    (h : (emitFrame s o ovf frame).trace.head? =
      some (.response (.encResult .ok len (some k)))) :
    ovf = false ∧ Ready (emitFrame s o ovf frame) ∧
      (List.range len).map (obRead (emitFrame s o ovf frame) k) = (wireBytes frame).map some := by
  obtain ⟨m, hend⟩ | ⟨hfull, hovf, hend⟩ := emitFrame_cases s o ovf frame
  · rw [hend] at h
    simp [messageTooLarge] at h
  · have hfits := emittedWire_fits hfull
    rw [hend, emittedWire_k hfits] at h ⊢
    cases h
    exact ⟨hovf, hr, obRead_emittedWire hfits⟩

theorem encodeFrame_ok {n o len : Nat} {ovf : Bool} {frame : List Byte} (hr : Ready s)
    (h : encodeFrame s ovf n frame = .next t)
    (hok : t.trace.head? = some (.response (.encResult .ok len (some o)))) :
    ovf = false ∧ Ready t ∧
      (List.range len).map (obRead t o) = (wireBytes frame).map some := by
  obtain ⟨-, -, rfl⟩ | ⟨-, ⟨k, -, -, rfl⟩ | ⟨-, rfl⟩ | ⟨-, rfl⟩⟩ := encodeFrame_cases h
  · simp at hok
  · exact emitFrame_ok (by simpa [Ready, afterOutAlloc] using hr) hok
  · simp at hok
  · simp at hok

/-- An `ENCODE frame` that answers `OK` leaves the frame's wire form in the output buffer and does
not touch the decoder (30_encoding.md R104, 42_encoder.md R207). -/
theorem encodeCall_ok {frame : List Byte} {o len : Nat} (hr : Ready s)
    (hsize : s.encIn.length = s.cfg.encInMax)
    (h : runCommands (encodeCall frame) s = .next t)
    (hok : t.trace.head? = some (.response (.encResult .ok len (some o)))) :
    Ready t ∧ DecoderUntouched s t ∧
      (List.range len).map (obRead t o) = (wireBytes frame).map some := by
  obtain ⟨v, hv, hloads⟩ := andThen_next h
  rw [exec_encClear hr] at hv
  cases hv
  rw [runCommands_append] at hloads
  obtain ⟨v, hv, hlast⟩ := andThen_next hloads
  obtain ⟨w, ht, hw⟩ := andThen_next hlast
  cases hw
  have hempty : Staged s [] (respond (clearStaging s) .ack) :=
    ⟨hr, (decoderUntouched_clearStaging s).trans (decoderUntouched_respond _ _), hsize,
      fun _ => ⟨rfl, rfl⟩⟩
  have hstaged : Staged s frame v := staged_encLoads hempty hv
  rw [exec_encFrame hstaged.ready] at ht
  obtain ⟨hovf, hready, hread⟩ := encodeFrame_ok (s := clearStaging v) hstaged.ready ht hok
  obtain ⟨-, hframe⟩ := hstaged.holds hovf
  refine ⟨hready, ?_, hframe ▸ hread⟩
  exact (hstaged.untouched.trans (decoderUntouched_clearStaging v)).trans
    (decoderUntouched_encodeFrame ht)

/-! ## Decoding stuffed bytes -/

@[simp] theorem masked_masked (v : Byte) : masked (masked v) = v := by
  simp [masked]

theorem not_marker_of_not_needsEsc {v : Byte} (h : needsEsc v = false) :
    v ≠ flag ∧ v ≠ escByte := by
  simp only [needsEsc, Bool.or_eq_false_iff, beq_eq_false_iff_ne] at h
  exact h.1

theorem masked_ne_flag {v : Byte} (h : needsEsc v = true) : masked v ≠ flag := by
  revert v
  decide

/-- Since `s` the decoder was reset and the bytes `l` were appended, nothing more: it stands outside
discard mode and between two stuffed bytes. -/
structure Assembling (s : State) (l : List Byte) (u : State) : Prop where
  ready : Ready u
  noEsc : u.decEsc = false
  noDiscard : u.decDiscard = false
  cfg : u.cfg = s.cfg
  decBuf : u.decBuf = s.decBuf
  deliveries : deliveries u = deliveries s
  len : u.decLen = l.length
  crc : u.decCrc = crc16 l
  tag : fbRead u u.decBuf tagOffset = some u.cfg.tagInit
  bytes : fbBytes u u.decBuf hdrRes u.decLen = l.map some

theorem assembling_nil (hr : Ready s) (hlt : tagOffset < s.cfg.bufSize) :
    Assembling s [] (respond (afterDecReset s) .ack) :=
  ⟨hr, rfl, rfl, rfl, rfl, rfl, rfl, rfl, fbRead_tag_afterDecReset s hlt, rfl⟩

theorem assembling_append {l : List Byte} (hu : Assembling s l u) (v : Byte)
    (hroom : u.decLen < u.cfg.cap) :
    Assembling s (l ++ [v]) (respond (afterAppend u v) .ack) := by
  have hlt : hdrRes + u.decLen < u.cfg.bufSize := by
    simp only [Params.cap] at hroom
    omega
  refine ⟨hu.ready, hu.noEsc, hu.noDiscard, hu.cfg, hu.decBuf, hu.deliveries, ?_, ?_, ?_, ?_⟩
  · simp [afterAppend, hu.len]
  · rw [crc16_append_one, ← hu.crc]
    rfl
  · refine (sameBytesBut_afterAppend v hlt _ _ (.inr ?_)).trans hu.tag
    simp only [tagOffset, hdrRes]
    omega
  · refine (fbBytes_afterAppend u v hlt).trans ?_
    rw [hu.bytes, List.map_append]
    rfl

theorem assembling_storeByte {l : List Byte} (hu : Assembling s l u) (v : Byte)
    (hroom : u.decLen < u.cfg.cap) :
    ∃ w, storeByte u v = .next w ∧ Assembling s (l ++ [v]) w :=
  ⟨_, storeByte_room v hroom, assembling_append hu v hroom⟩

/-- The wire bytes of one byte append that byte (42_encoder.md R194, 41_decoder.md R150, R151). -/
theorem assembling_stuff {l : List Byte} (hu : Assembling s l u) (v : Byte)
    (hroom : u.decLen < u.cfg.cap) :
    ∃ w, runCommands ((stuff v).map .decByte) u = .next w ∧ Assembling s (l ++ [v]) w := by
  unfold stuff
  cases hv : needsEsc v with
  | true =>
    have hesc : exec (.decByte escByte) u = .next (respond (setEsc u true) .ack) :=
      (exec_decByte hu.ready _).trans (consumeByte_marker hu.noDiscard hu.noEsc)
    have hmasked : exec (.decByte (masked v)) (respond (setEsc u true) .ack) =
        storeByte (setEsc (respond (setEsc u true) .ack) false) v := by
      rw [exec_decByte (s := respond (setEsc u true) .ack) hu.ready,
        consumeByte_stores (s := respond (setEsc u true) .ack) (masked_ne_flag hv) hu.noDiscard
          (.inl ⟨rfl, (masked_masked v).symm⟩)]
    obtain ⟨w, hw, hassembled⟩ := assembling_storeByte
      (u := setEsc (respond (setEsc u true) .ack) false) { hu with noEsc := rfl } v hroom
    exact ⟨w, by simp [runCommands, hesc, hmasked, hw], hassembled⟩
  | false =>
    obtain ⟨hflag, hesc⟩ := not_marker_of_not_needsEsc hv
    have hdata : exec (.decByte v) u = storeByte u v :=
      (exec_decByte hu.ready v).trans (consumeByte_data hflag hu.noDiscard hu.noEsc hesc)
    obtain ⟨w, hw, hassembled⟩ := assembling_storeByte hu v hroom
    exact ⟨w, by simp [runCommands, hdata, hw], hassembled⟩

theorem assembling_stuffAll {bytes l : List Byte} (hu : Assembling s l u)
    (hroom : l.length + bytes.length ≤ s.cfg.cap) :
    ∃ w, runCommands ((stuffAll bytes).map .decByte) u = .next w ∧
      Assembling s (l ++ bytes) w := by
  induction bytes generalizing l u with
  | nil => exact ⟨u, rfl, by simpa using hu⟩
  | cons v bytes ih =>
    simp only [List.length_cons] at hroom
    obtain ⟨w, hw, hlw⟩ := assembling_stuff hu v (by rw [hu.len, hu.cfg]; omega)
    obtain ⟨x, hx, hlx⟩ := ih hlw (by simp only [List.length_append, List.length_singleton]; omega)
    refine ⟨x, ?_, by simpa using hlx⟩
    rw [stuffAll, List.flatMap_cons, List.map_append, runCommands_append, hw]
    exact hx

/-- A frame and its check sequence, assembled, are a well-formed frame (40_crc.md R126). -/
theorem wellFormed_of_assembling {frame : List Byte} (hu : Assembling s (frame ++ fcsBytes frame) u)
    (hne : 0 < frame.length) : WellFormedFrame u := by
  refine ⟨hu.noEsc, hu.noDiscard, ?_, hu.crc.trans (crc16_append_fcsBytes frame)⟩
  rw [hu.len]
  simp [fcsBytes, hne]

/-- The closing `FLAG` delivers the frame, trimmed of its check sequence (41_decoder.md R145). -/
theorem deliveries_of_closingFlag {frame : List Byte}
    (hu : Assembling s (frame ++ fcsBytes frame) u) (hne : 0 < frame.length)
    (h : exec (.decByte flag) u = .next t) :
    deliveries t = .deliver s.cfg.instId s.decBuf frame.length
      (some s.cfg.tagInit :: frame.map some) (consumerAnswer u) :: deliveries s := by
  rw [exec_flag_delivers hu.ready (wellFormed_of_assembling hu hne)] at h
  have hlen : u.decLen - 2 = frame.length := by
    rw [hu.len]
    simp [fcsBytes]
  have hseen := seenAtDelivery_of_assembled hu.tag (hu.len ▸ hu.bytes)
  rw [deliverFrame_deliveries h, hlen, hseen, hu.deliveries, hu.cfg, hu.decBuf]

/-! ## The two units together -/

theorem wireBytes_eq_append (frame : List Byte) :
    wireBytes frame = (flag :: stuffAll (frame ++ fcsBytes frame)) ++ [flag] := by
  simp [wireBytes, stuffAll]

/-- Fed the wire form but its last byte, a decoder between frames assembles the frame. -/
theorem assembling_wire {frame : List Byte} (hr : Ready s) (hlt : tagOffset < s.cfg.bufSize)
    (hempty : s.decLen = 0) (hroom : frame.length + 2 ≤ s.cfg.cap) :
    ∃ u, runCommands ((wireBytes frame).dropLast.map .decByte) s = .next u ∧
      Assembling s (frame ++ fcsBytes frame) u := by
  have hmalformed : ¬ WellFormedFrame s := fun ⟨_, _, hlen, _⟩ => by omega
  have hopen : exec (.decByte flag) s = .next (respond (afterDecReset s) .ack) :=
    (exec_decByte hr flag).trans ((consumeByte_flag_bad hmalformed).trans (resetAndAck_of_lt hlt))
  obtain ⟨u, hu, hassembled⟩ := assembling_stuffAll (assembling_nil hr hlt)
    (bytes := frame ++ fcsBytes frame) (by simpa [fcsBytes] using hroom)
  refine ⟨u, ?_, hassembled⟩
  rw [wireBytes_eq_append, List.dropLast_concat, List.map_cons, runCommands, hopen]
  exact hu

/-- Settles O52: the output buffer holds the wire form of the frame, and the decoder, untouched by
the encoding, assembles and delivers it. -/
theorem roundTrip : Obligations.RoundTrip := by
  unfold Obligations.RoundTrip
  intro s t frame wire o len hr h8 hsize hshort hroom hempty _ _ hrun hok hread
  obtain ⟨hready, ⟨hcfg, ⟨hbuf, hlen, -⟩, -, -⟩, hwire⟩ := encodeCall_ok hr hsize hrun hok
  obtain rfl : wire = wireBytes frame :=
    List.map_injective_iff.mpr (Option.some_injective _) (hread.symm.trans hwire)
  have hne : 0 < frame.length := Nat.zero_lt_of_lt hshort
  obtain ⟨u, hu, hassembled⟩ := assembling_wire (frame := frame) hready (by rwa [hcfg])
    (hlen.trans hempty) (by rwa [hcfg])
  refine ⟨?_, u, hu, hassembled.ready, hassembled.deliveries,
    wellFormed_of_assembling hassembled hne, fun v hv => ⟨consumerAnswer u, ?_⟩⟩
  · rw [wireBytes_eq_append, List.getLast?_concat]
    rfl
  · rw [← hcfg, ← hbuf]
    exact deliveries_of_closingFlag hassembled hne hv

end Sys2Proof.Machine
end

section
/-!
PROOFS. The encoder's byte stuffing and the wire form of a frame (42_encoder.md sections 1 and 4):
the decoder undoes the stuffing, `FLAG` stands at the two ends only, and how long the wire form is.
-/
namespace Sys2Proof.Machine

variable {s : State}

/-! ## Byte stuffing -/

theorem needsEsc_iff (v : Byte) : needsEsc v = true ↔ v = flag ∨ v = escByte ∨ v < ctrlLimit := by
  simp [needsEsc, or_assoc]

theorem stuff_of_needsEsc {v : Byte} (h : needsEsc v = true) : stuff v = [escByte, masked v] :=
  if_pos h

theorem stuff_of_not_needsEsc {v : Byte} (h : needsEsc v = false) : stuff v = [v] :=
  if_neg (by simp [h])

theorem flag_not_mem_stuff (v : Byte) : flag ∉ stuff v := by
  cases hv : needsEsc v with
  | true =>
    rw [stuff_of_needsEsc hv]
    simpa using ⟨by decide, (masked_ne_flag hv).symm⟩
  | false =>
    rw [stuff_of_not_needsEsc hv]
    simpa using (not_marker_of_not_needsEsc hv).1.symm

/-- A masked control byte lies in the 32 values above the control bytes; a masked marker is `0x5D`
or `0x5E` (42_encoder.md R194). -/
theorem masked_of_needsEsc {v : Byte} (h : needsEsc v = true) :
    0x20#8 ≤ masked v ∧ masked v ≤ 0x3F#8 ∨ masked v = 0x5D#8 ∨ masked v = 0x5E#8 := by
  obtain rfl | rfl | hctrl := (needsEsc_iff v).mp h
  · exact .inr (.inr (by decide))
  · exact .inr (.inl (by decide))
  · left
    revert v
    decide

/-- With room, outside discard mode and with no escape pending, the wire bytes of `v` append `v`,
and the decoder has sent responses only (41_decoder.md R150, R151). -/
theorem runCommands_stuff (hr : Ready s) (hd : s.decDiscard = false) (he : s.decEsc = false)
    (hroom : s.decLen < s.cfg.cap) (v : Byte) :
    ∃ sent, sent.filter isDelivery = deliveries s ∧
      runCommands ((stuff v).map .decByte) s = .next (afterAppend { s with trace := sent } v) := by
  cases hv : needsEsc v with
  | true =>
    have hesc := escapeMarkerSetsEsc s hr hd he
    have hmasked := dataByteIsAppended
      { s with decEsc := true, trace := .response .ack :: s.trace } (masked v) v hr
      (masked_ne_flag hv) hd (.inl ⟨rfl, (masked_masked v).symm⟩) hroom
    refine ⟨.response .ack :: .response .ack :: s.trace, rfl, ?_⟩
    rw [stuff_of_needsEsc hv, afterAppend, he]
    exact (congrArg (andThen · _) hesc).trans (congrArg (andThen · _) hmasked)
  | false =>
    obtain ⟨hflag, hmarker⟩ := not_marker_of_not_needsEsc hv
    have hdata := dataByteIsAppended s v v hr hflag hd (.inr ⟨he, hmarker, rfl⟩) hroom
    refine ⟨.response .ack :: s.trace, rfl, ?_⟩
    rw [stuff_of_not_needsEsc hv, afterAppend, he]
    exact congrArg (andThen · _) hdata

/-- Settles O46: the escape test by its three cases, and the store the stuffed bytes come to. -/
theorem stuffingIsInvertible : Obligations.StuffingIsInvertible := by
  unfold Obligations.StuffingIsInvertible
  refine ⟨needsEsc_iff, fun v => ?_, flag_not_mem_stuff, fun v => masked_of_needsEsc, by decide,
    fun s v hr hd he hroom => ?_⟩
  · simp only [stuff, needsEsc_iff]
    rfl
  · obtain ⟨sent, hsent, hrun⟩ := runCommands_stuff hr hd he hroom v
    exact ⟨_, hrun, hr, rfl, rfl, rfl, he, hd, hsent⟩

/-! ## The wire form -/

theorem flag_not_mem_stuffAll (l : List Byte) : flag ∉ stuffAll l := by
  simp [stuffAll, flag_not_mem_stuff]

/-- Settles O47: the body is the stuffed frame and check sequence. -/
theorem wireFlagsOnlyAtEnds : Obligations.WireFlagsOnlyAtEnds := by
  unfold Obligations.WireFlagsOnlyAtEnds
  intro frame
  exact ⟨stuffAll (frame ++ fcsBytes frame), wireBytes_eq_append frame, flag_not_mem_stuffAll _⟩

theorem length_stuff (v : Byte) : (stuff v).length = stuffedWidth v := by
  unfold stuff stuffedWidth
  split <;> rfl

theorem length_stuffAll (l : List Byte) : (stuffAll l).length = (l.map stuffedWidth).sum := by
  simp [stuffAll, List.length_flatMap, length_stuff]

theorem length_wireBytes (frame : List Byte) :
    (wireBytes frame).length = (stuffAll (frame ++ fcsBytes frame)).length + 2 := by
  simp [wireBytes_eq_append]

theorem length_frame_fcsBytes (frame : List Byte) :
    (frame ++ fcsBytes frame).length = frame.length + 2 := by
  simp [fcsBytes]

theorem stuffedWidth_of_needsEsc {v : Byte} (h : needsEsc v = true) : stuffedWidth v = 2 := if_pos h

theorem stuffedWidth_of_not_needsEsc {v : Byte} (h : needsEsc v = false) : stuffedWidth v = 1 :=
  if_neg (by simp [h])

/-- Stuffing at most doubles a list, and doubles it only if every byte needs escaping. -/
theorem length_stuffAll_bounds (l : List Byte) :
    l.length ≤ (stuffAll l).length ∧ (stuffAll l).length ≤ 2 * l.length ∧
      (2 * l.length ≤ (stuffAll l).length ↔ ∀ b ∈ l, needsEsc b = true) := by
  simp only [length_stuffAll]
  induction l with
  | nil => simp
  | cons v l ih =>
    obtain ⟨hlow, hhigh, hdouble⟩ := ih
    simp only [List.map_cons, List.sum_cons, List.length_cons, List.forall_mem_cons, ← hdouble]
    cases hv : needsEsc v with
    | true =>
      rw [stuffedWidth_of_needsEsc hv]
      simp only [true_and]
      omega
    | false =>
      rw [stuffedWidth_of_not_needsEsc hv]
      simp only [Bool.false_eq_true, false_and, iff_false]
      omega

theorem length_wireBytes_bounds (frame : List Byte) :
    frame.length + 4 ≤ (wireBytes frame).length ∧
      (wireBytes frame).length ≤ 2 * frame.length + 6 := by
  obtain ⟨hlow, hhigh, -⟩ := length_stuffAll_bounds (frame ++ fcsBytes frame)
  rw [length_frame_fcsBytes] at hlow hhigh
  rw [length_wireBytes]
  omega

/-- Settles O48: a byte's wire bytes are as many as its width says. -/
theorem wireLengthFormula : Obligations.WireLengthFormula := by
  unfold Obligations.WireLengthFormula
  intro frame
  refine ⟨?_, length_wireBytes_bounds frame⟩
  rw [length_wireBytes, length_stuffAll, List.map_append, List.sum_append]
  simp only [fcsBytes, lowByte, highByte, List.map_cons, List.map_nil, List.sum_cons, List.sum_nil]
  omega

theorem length_wireBytes_max_iff (frame : List Byte) :
    2 * frame.length + 6 ≤ (wireBytes frame).length ↔ (∀ b ∈ frame, needsEsc b = true) ∧
      needsEsc (lowByte (fcs16 frame)) = true ∧ needsEsc (highByte (fcs16 frame)) = true := by
  obtain ⟨-, -, hdouble⟩ := length_stuffAll_bounds (frame ++ fcsBytes frame)
  rw [length_frame_fcsBytes] at hdouble
  rw [length_wireBytes, show 2 * frame.length + 6 = 2 * (frame.length + 2) + 2 by omega,
    Nat.add_le_add_iff_right, hdouble, List.forall_mem_append]
  simp [fcsBytes]

/-- Settles O49: `OUT_CAP` is one less than the longest wire form of `MRU + HDR_LEN` bytes. -/
theorem whichFramesFit : Obligations.WhichFramesFit := by
  unfold Obligations.WhichFramesFit
  intro p frame
  have hcap : p.outCap = 2 * (p.mru + p.hdrLen) + 5 := by simp only [Params.outCap, fcsLen]; omega
  obtain ⟨hlow, hhigh⟩ := length_wireBytes_bounds frame
  refine ⟨fun hshort => by omega, fun hlen => ?_, fun hlong => by omega⟩
  rw [← length_wireBytes_max_iff, hcap, hlen]
  omega

end Sys2Proof.Machine
end

section
/-!
PROOFS. The encoder's commands, each by its effect on a ready core (42_encoder.md sections 2 to 4):
the staging, `ENC_FRAME` by the output allocator's answers, and a whole `ENCODE` call.
-/
namespace Sys2Proof.Machine

variable {s : State}

/-! ## The staging -/

/-- Settles O40: the word is its instruction's, and clearing the staging is all it does. -/
theorem encClearCompletes : Obligations.EncClearCompletes := by
  unfold Obligations.EncClearCompletes
  exact ⟨decode_encode .encClear, fun s hr => exec_encClear hr⟩

theorem encode_encLoad (b : Byte) : encode (.encLoad b) = 0x5000#16 ||| b.setWidth 16 := by
  revert b
  decide

/-- Settles O41, by the two branches on the room in the staging. -/
theorem encLoadCompletes : Obligations.EncLoadCompletes := by
  unfold Obligations.EncLoadCompletes
  refine ⟨fun b => ?_, fun s b hr hroom => ?_, fun s b hr hfull => ?_⟩
  · rw [← encode_encLoad, decode_encode]
  · rw [exec_encLoad hr, if_pos hroom]
    rfl
  · rw [exec_encLoad hr, if_neg (by omega)]
    rfl

/-! ## ENC_FRAME, by the allocator's answer -/

/-- Between `s` and `t` the staging was emptied and one answer of the output allocator was taken;
the staged bytes, the decoder and its buffers and the port are as they were (42_encoder.md R203,
R207). -/
structure StagingTaken (s t : State) : Prop where
  encN : t.encN = 0
  encOvf : t.encOvf = false
  encIn : t.encIn = s.encIn
  decoder : SameDecoder s t
  frameSide : SameFrameSide s t
  cfg : t.cfg = s.cfg
  inputs : t.inputs = s.inputs
  outAllocs : t.outAllocs = s.outAllocs.tail

/-- The state in which `ENC_FRAME` meets the allocator's answer `a`. -/
def frameAsked (s : State) (a : AllocAnswer) : State :=
  emit (allocatorAnswered (clearStaging s)) (.outAlloc a)

@[simp] theorem frameAsked_trace (s : State) (a : AllocAnswer) :
    (frameAsked s a).trace = .outAlloc a :: s.trace := by simp [frameAsked]

@[simp] theorem frameAsked_ob (s : State) (a : AllocAnswer) : (frameAsked s a).ob = s.ob := by
  simp [frameAsked]

@[simp] theorem frameAsked_obOwner (s : State) (a : AllocAnswer) :
    (frameAsked s a).obOwner = s.obOwner := by simp [frameAsked]

theorem ready_frameAsked (hr : Ready s) (a : AllocAnswer) : Ready (frameAsked s a) := by
  simpa [Ready, frameAsked] using hr

theorem stagingTaken_frameAsked (s : State) (a : AllocAnswer) :
    StagingTaken s (frameAsked s a) := by
  constructor <;> simp [frameAsked, SameDecoder, SameFrameSide]

theorem encodeFrame_checked {ovf : Bool} {n : Nat} (h : ovf = true ∨ s.cfg.hdrLen < n) :
    ¬ (!ovf && decide (n ≤ s.cfg.hdrLen)) = true := by
  obtain rfl | hlen := h
  · simp
  · simp [hlen]

section
variable (hr : Ready s) (hcheck : s.encOvf = true ∨ s.cfg.hdrLen < s.encN)
include hr hcheck

theorem exec_encFrame_granted {o : Nat} (ha : allocatorAnswer (clearStaging s) = .ok o)
    (hg : allocatorMayGive s o = true) : exec .encFrame s =
      .next (emitFrame (afterOutAlloc (clearStaging s) o) o s.encOvf (stagedFrame s)) := by
  have hg' : allocatorMayGive (clearStaging s) o = true := hg
  rw [exec_encFrame hr, encodeFrame, if_neg (encodeFrame_checked (s := clearStaging s) hcheck),
    outAlloc_eq, ha]
  simp only [hg', if_true]

theorem exec_encFrame_allocFail (ha : allocatorAnswer (clearStaging s) = .fail) :
    exec .encFrame s = .next (raiseFault (frameAsked s .fail) .allocFail) := by
  rw [exec_encFrame hr, encodeFrame, if_neg (encodeFrame_checked (s := clearStaging s) hcheck),
    outAlloc_eq, ha]
  rfl

theorem exec_encFrame_silent (ha : allocatorAnswer (clearStaging s) = .silent) :
    exec .encFrame s = .next { frameAsked s .silent with wait := some .outAllocator } := by
  rw [exec_encFrame hr, encodeFrame, if_neg (encodeFrame_checked (s := clearStaging s) hcheck),
    outAlloc_eq, ha]
  rfl

end

/-- Settles O45: the allocator was asked once the staging was emptied, and nothing was written. -/
theorem encFrameAllocFails : Obligations.EncFrameAllocFails := by
  unfold Obligations.EncFrameAllocFails
  intro s hr hcheck
  constructor
  · intro ha
    obtain ⟨hwait, -⟩ := ready_frameAsked hr .fail
    obtain ⟨hn, hovf, hin, hdec, hframes, hcfg, hinputs, hallocs⟩ := stagingTaken_frameAsked s .fail
    exact ⟨_, exec_encFrame_allocFail hr hcheck ha, rfl, hwait, by simp, hn, hovf, hin,
      frameAsked_ob s .fail, frameAsked_obOwner s .fail, hdec, hframes, hcfg, hinputs, hallocs⟩
  · intro ha
    obtain ⟨-, hfault⟩ := ready_frameAsked hr .silent
    obtain ⟨hn, hovf, hin, hdec, hframes, hcfg, hinputs, hallocs⟩ :=
      stagingTaken_frameAsked s .silent
    exact ⟨_, exec_encFrame_silent hr hcheck ha, hfault, rfl, frameAsked_trace s _, hn, hovf, hin,
      frameAsked_ob s .silent, frameAsked_obOwner s .silent, hdec, hframes, hcfg, hinputs, hallocs⟩

/-! ## A frame whose wire form fits -/

/-- A frame whose wire form fits is emitted whole (42_encoder.md R201, R202). -/
theorem emitFrame_fits {o : Nat} {frame : List Byte}
    (hfits : (wireBytes frame).length ≤ s.cfg.outCap) :
    emitFrame s o false frame = wireFrameReady { s with ob := (emittedWire s o frame).mem } o
      (wireBytes frame).length := by
  have hfull := emitBytes_full_iff s.cfg o (wireBytes frame) ⟨s.ob, 0, false⟩ rfl (Nat.zero_le _)
  have hend : ¬ (false || (emittedWire s o frame).full) = true := by
    rw [Bool.false_or, emittedWire, hfull]
    simpa using hfits
  rw [← emittedWire_k hfits]
  exact if_neg hend

/-- Emitting a wire form that fits writes it to the start of `o` and nothing else (42_encoder.md
R194, 20_memory.md R67). -/
theorem obRead_emitted {o : Nat} {frame : List Byte}
    (hfits : (wireBytes frame).length ≤ s.cfg.outCap) (k i : Nat) :
    obRead { s with ob := (emittedWire s o frame).mem } k i =
      if k = o ∧ i < (wireBytes frame).length then (wireBytes frame)[i]? else obRead s k i := by
  by_cases hi : i < s.cfg.outCap
  · simp only [obRead, if_pos hi]
    split
    · obtain ⟨rfl, hlt⟩ := ‹_›
      have hread := emitBytes_read s.cfg k (wireBytes frame) ⟨s.ob, 0, false⟩ rfl
        (by simpa using hfits) i hlt
      rwa [Nat.zero_add] at hread
    · rename_i hout
      refine emitBytes_read_out s.cfg o (wireBytes frame) ⟨s.ob, 0, false⟩ (Nat.zero_le _) _ ?_
      simp only [obAddr]
      by_cases hk : k = o
      · subst hk
        omega
      · have := addr_outside hi hk
        omega
  · have hpast : ¬ (k = o ∧ i < (wireBytes frame).length) := by omega
    simp [obRead, hi, hpast]

/-- The end of an `ENC_FRAME` whose wire form fits: it was emitted to the fresh buffer `o`, which
went to the host (42_encoder.md R202). -/
def wireSent (s : State) (o : Nat) (frame : List Byte) : State :=
  wireFrameReady { afterOutAlloc s o with ob := (emittedWire (afterOutAlloc s o) o frame).mem } o
    (wireBytes frame).length

@[simp] theorem wireSent_trace (s : State) (o : Nat) (frame : List Byte) :
    (wireSent s o frame).trace =
      .response (.encResult .ok (wireBytes frame).length (some o)) :: .outAlloc (.ok o) ::
        s.trace := by
  simp [wireSent, wireFrameReady, afterOutAlloc]

theorem ready_wireSent (hr : Ready s) (o : Nat) (frame : List Byte) :
    Ready (wireSent s o frame) := by
  simpa [Ready, wireSent, wireFrameReady, afterOutAlloc] using hr

theorem stagingTaken_wireSent (s : State) (o : Nat) (frame : List Byte) :
    StagingTaken s (wireSent (clearStaging s) o frame) := by
  constructor <;> simp [wireSent, wireFrameReady, afterOutAlloc, SameDecoder, SameFrameSide]

/-- The host reads the wire form and, past it, nothing written (20_memory.md R65, R67). -/
theorem obRead_wireSent {o : Nat} {frame : List Byte}
    (hfits : (wireBytes frame).length ≤ s.cfg.outCap) (k i : Nat) :
    obRead (wireSent s o frame) k i = if k = o then (wireBytes frame)[i]? else obRead s k i := by
  have hfresh : obRead (afterOutAlloc s o) k i = if k = o then none else obRead s k i :=
    (obRead_congr (t := afterOutAlloc s o)
      (s := { s with ob := s.ob.forget (obAddr s.cfg o 0) s.cfg.outCap })
      (by simp) rfl k i).trans (obRead_forget s o k i)
  rw [wireSent, wireFrameReady, obRead_congr (respond_cfg _ _) (respond_ob _ _),
    obRead_congr (setOutOwner_cfg _ _ _) (setOutOwner_ob _ _ _),
    obRead_emitted (by simpa using hfits), hfresh]
  by_cases hk : k = o
  · by_cases hi : i < (wireBytes frame).length <;> simp [hk, hi]
  · simp [hk]

theorem outOwner_set (s : State) (o k : Nat) (w : OutOwner) :
    outOwner (setOutOwner s o w) k = if k = o then some w else outOwner s k := by
  by_cases hk : k = o
  · rw [hk, outOwner_set_self, if_pos rfl]
  · rw [outOwner_set_ne s w hk, if_neg hk]

/-- The buffer was the encoder's during the step and is the host's after it (10_state.md R46). -/
theorem outOwner_wireSent (s : State) (o : Nat) (frame : List Byte) (k : Nat) :
    outOwner (wireSent s o frame) k = if k = o then some .host else outOwner s k := by
  have htaken : outOwner (afterOutAlloc s o) k = if k = o then some .enc else outOwner s k :=
    (outOwner_set (emit (allocatorAnswered s) (.outAlloc (.ok o))) o k .enc).trans
      (by rw [outOwner_congr (s := s) (by simp)])
  refine (outOwner_set _ o k .host).trans ?_
  by_cases hk : k = o
  · rw [if_pos hk, if_pos hk]
  · rw [if_neg hk, if_neg hk]
    exact htaken.trans (if_neg hk)

theorem exec_encFrame_fits {o : Nat} (hr : Ready s) (hovf : s.encOvf = false)
    (hlen : s.cfg.hdrLen < s.encN) (ha : allocatorAnswer (clearStaging s) = .ok o)
    (hg : allocatorMayGive s o = true)
    (hfits : (wireBytes (stagedFrame s)).length ≤ s.cfg.outCap) :
    exec .encFrame s = .next (wireSent (clearStaging s) o (stagedFrame s)) := by
  rw [exec_encFrame_granted hr (.inr hlen) ha hg, hovf, emitFrame_fits (by simpa using hfits)]
  rfl

/-- Settles O43: the whole wire form goes to the fresh buffer, which goes to the host. -/
theorem encFrameSucceeds : Obligations.EncFrameSucceeds := by
  unfold Obligations.EncFrameSucceeds
  intro s o hr hovf hlen ha hg hfits
  obtain ⟨hn, hovf', hin, hdec, hframes, hcfg, hinputs, hallocs⟩ :=
    stagingTaken_wireSent s o (stagedFrame s)
  exact ⟨_, exec_encFrame_fits hr hovf hlen ha hg hfits, wireSent_trace _ o _,
    ready_wireSent (s := clearStaging s) hr o _, hn, hovf', hin,
    outOwner_wireSent (clearStaging s) o (stagedFrame s),
    obRead_wireSent (s := clearStaging s) hfits, hdec, hframes, hcfg, hinputs, hallocs⟩

/-! ## A whole ENCODE call -/

/-- `s` with `n` of the bytes `l` staged, no overflow, and `sent` what it has sent. -/
def withStaging (s : State) (l : List Byte) (n : Nat) (sent : List Event) : State :=
  { s with encIn := l, encN := n, encOvf := false, trace := sent }

theorem exec_encLoad_withStaging (hr : Ready s) (b : Byte) {l : List Byte} {n : Nat}
    (sent : List Event) (hroom : n < s.cfg.encInMax) :
    exec (.encLoad b) (withStaging s l n sent) =
      .next (withStaging s (l.set n b) (n + 1) (.response .ack :: sent)) := by
  rw [exec_encLoad (s := withStaging s l n sent) hr]
  exact if_pos hroom

/-- Loads that fit append their bytes to the staging and do nothing but respond (42_encoder.md
R192). -/
theorem runCommands_encLoads (hr : Ready s) (bytes : List Byte) {l : List Byte} {n : Nat}
    (sent : List Event) (hsize : l.length = s.cfg.encInMax)
    (hroom : n + bytes.length ≤ s.cfg.encInMax) :
    ∃ l' sent', runCommands (bytes.map .encLoad) (withStaging s l n sent) =
        .next (withStaging s l' (n + bytes.length) sent') ∧
      l'.take (n + bytes.length) = l.take n ++ bytes := by
  induction bytes generalizing l n sent with
  | nil => exact ⟨l, sent, rfl, by simp⟩
  | cons b bytes ih =>
    have hn : n + (b :: bytes).length = n + 1 + bytes.length := by
      rw [List.length_cons]
      omega
    rw [hn] at hroom ⊢
    have hlt : n < s.cfg.encInMax := by omega
    obtain ⟨l', sent', hrun, htake⟩ := ih (l := l.set n b) (.response .ack :: sent)
      (by simpa using hsize) hroom
    refine ⟨l', sent', ?_, ?_⟩
    · rw [List.map_cons, runCommands, exec_encLoad_withStaging hr b sent hlt,
        andThen_of_next, hrun]
    · rw [htake, take_set_append l b (hsize ▸ hlt), List.append_assoc, List.singleton_append]

/-- An `ENCODE` call whose frame fits the staging is one `ENC_FRAME` on a staging of exactly that
frame (30_encoding.md R104). -/
theorem runCommands_encodeCall (hr : Ready s) {frame : List Byte}
    (hsize : s.encIn.length = s.cfg.encInMax) (hroom : frame.length ≤ s.cfg.encInMax) :
    ∃ l sent, runCommands (encodeCall frame) s =
        exec .encFrame (withStaging s l frame.length sent) ∧ l.take frame.length = frame := by
  have hclear : exec .encClear s =
      .next (withStaging s s.encIn 0 (.response .ack :: s.trace)) := exec_encClear hr
  obtain ⟨l, sent, hloads, htake⟩ := runCommands_encLoads hr frame (n := 0)
    (.response .ack :: s.trace) hsize (by rwa [Nat.zero_add])
  rw [Nat.zero_add] at hloads htake
  refine ⟨l, sent, ?_, htake⟩
  rw [encodeCall, runCommands, hclear, andThen_of_next, runCommands_append, hloads, andThen_of_next,
    runCommands]
  cases exec .encFrame (withStaging s l frame.length sent) <;> rfl

/-- Settles O51: `ENC_FRAME` meets a staging of exactly the frame. -/
theorem encodeCallEncodesItsFrame : Obligations.EncodeCallEncodesItsFrame := by
  unfold Obligations.EncodeCallEncodesItsFrame
  intro s frame o hr hsize hlen hfits ha hg
  have hroom : frame.length ≤ s.cfg.encInMax := by
    have hlow := (length_wireBytes_bounds frame).1
    rw [Params.encInMax]
    omega
  obtain ⟨l, sent, hrun, hframe⟩ := runCommands_encodeCall hr hsize hroom
  have hstaged : stagedFrame (withStaging s l frame.length sent) = frame := hframe
  have hlast := exec_encFrame_fits (s := withStaging s l frame.length sent) hr rfl hlen ha hg
    (by rwa [hstaged])
  rw [hstaged] at hlast
  refine ⟨_, hrun.trans hlast, by rw [wireSent_trace, List.head?_cons], ?_, fun i => ?_⟩
  · rw [outOwner_wireSent, if_pos rfl]
  · exact (obRead_wireSent (s := clearStaging (withStaging s l frame.length sent)) hfits o i).trans
      (if_pos rfl)

end Sys2Proof.Machine
end

section
/-!
PROOFS. Errors the host made (60_exceptions.md R234, R236, R237): an illegal word, and an `ENC_FRAME`
whose frame is too short or too long.
-/
namespace Sys2Proof.Machine

variable {s : State}

/-! ## Illegal words -/

/-- A word first on the port is dispatched on the state with that word taken (30_encoding.md R96). -/
theorem step_of_command {w : Word} {rest : List Input} (h : s.inputs = .command w :: rest) :
    step s = runWord w { s with inputs := rest } := by
  simp [step, nextInput, inputTaken, h]

/-- Settles O9: a ready core dispatches the word, and `illegalCommand` only raises the fault. -/
theorem illegalWordRaisesIllegalCmd : Obligations.IllegalWordRaisesIllegalCmd := by
  unfold Obligations.IllegalWordRaisesIllegalCmd
  intro s w rest hr hw hin
  rw [step_of_command hin, runWord_of_illegal hw,
    illegalCommand_ready (s := { s with inputs := rest }) hr]
  rfl

/-! ## A frame too short -/

/-- The length check comes before any allocation (42_encoder.md R196). -/
theorem encodeFrame_tooShort {n : Nat} (frame : List Byte) (h : n ≤ s.cfg.hdrLen) :
    encodeFrame s false n frame = .next (respond s (.encResult .einval 0 none)) :=
  if_pos (by simpa using h)

/-- Settles O42: the staging is emptied first, then the length check answers. -/
theorem encFrameTooShort : Obligations.EncFrameTooShort := by
  unfold Obligations.EncFrameTooShort
  intro s hr hovf hlen
  rw [exec_encFrame hr, hovf, encodeFrame_tooShort (s := clearStaging s) _ hlen]
  rfl

/-! ## A frame too long -/

/-- The input exceeded the staging, or the wire form exceeds the output buffer (42_encoder.md
R201). -/
def Overflows (s : State) (ovf : Bool) (frame : List Byte) : Prop :=
  ovf = true ∨ s.cfg.outCap < (wireBytes frame).length

/-- The output memory when the emitting ends, full buffer or not (42_encoder.md R193, R194). -/
def emittedMem (s : State) (o : Nat) (ovf : Bool) (frame : List Byte) : Memory :=
  (emitBytes s.cfg o { mem := s.ob, k := 0, full := false } (bytesToEmit ovf frame)).mem

/-- A frame that overflows is answered `EMSGSIZE`, whatever was emitted of it. -/
theorem emitFrame_tooLarge {o : Nat} {ovf : Bool} {frame : List Byte} (h : Overflows s ovf frame) :
    emitFrame s o ovf frame = messageTooLarge { s with ob := emittedMem s o ovf frame } o := by
  cases ovf with
  | true => rfl
  | false =>
    have hlong : s.cfg.outCap < (wireBytes frame).length := h.resolve_left (by decide)
    have hfull := emitBytes_full_iff s.cfg o (wireBytes frame) ⟨s.ob, 0, false⟩ rfl (Nat.zero_le _)
    rw [Nat.zero_add] at hfull
    exact if_pos (hfull.mpr hlong)

/-- Emitting, even past the capacity, writes no byte of another buffer (42_encoder.md R201). -/
theorem obRead_emittedMem_ne {o k : Nat} (hk : k ≠ o) (ovf : Bool) (frame : List Byte) (i : Nat) :
    obRead { s with ob := emittedMem s o ovf frame } k i = obRead s k i := by
  by_cases hi : i < s.cfg.outCap
  · simp only [obRead, if_pos hi]
    refine emitBytes_read_out s.cfg o _ ⟨s.ob, 0, false⟩ (Nat.zero_le _) _ ?_
    have := addr_outside hi hk
    simp only [obAddr]
    omega
  · simp [obRead, hi]

/-- The end of an `ENC_FRAME` whose frame overflows: what was emitted to the fresh buffer `o` went
back to the allocator with it (42_encoder.md R201). -/
def wireDropped (s : State) (o : Nat) (ovf : Bool) (frame : List Byte) : State :=
  messageTooLarge { afterOutAlloc s o with ob := emittedMem (afterOutAlloc s o) o ovf frame } o

@[simp] theorem wireDropped_trace (s : State) (o : Nat) (ovf : Bool) (frame : List Byte) :
    (wireDropped s o ovf frame).trace =
      .response (.encResult .emsgsize 0 none) :: .outRelease o :: .outAlloc (.ok o) :: s.trace := by
  simp [wireDropped, messageTooLarge, afterOutAlloc]

theorem ready_wireDropped (hr : Ready s) (o : Nat) (ovf : Bool) (frame : List Byte) :
    Ready (wireDropped s o ovf frame) := by
  simpa [Ready, wireDropped, messageTooLarge, afterOutAlloc] using hr

theorem stagingTaken_wireDropped (s : State) (o : Nat) (ovf : Bool) (frame : List Byte) :
    StagingTaken s (wireDropped (clearStaging s) o ovf frame) := by
  constructor <;> simp [wireDropped, messageTooLarge, afterOutAlloc, SameDecoder, SameFrameSide]

theorem outOwner_outRelease (s : State) (o k : Nat) :
    outOwner (outRelease s o) k = if k = o then none else outOwner s k :=
  Assoc.lookup_remove_one s.obOwner o k

/-- The buffer was the encoder's during the step only; the allocator owned it before and owns it
again (10_state.md R46, 42_encoder.md R201). -/
theorem outOwner_wireDropped {o : Nat} (hg : allocatorMayGive s o = true) (ovf : Bool)
    (frame : List Byte) (k : Nat) : outOwner (wireDropped s o ovf frame) k = outOwner s k := by
  obtain ⟨-, hfree⟩ := (allocatorMayGive_iff s o).mp hg
  refine (outOwner_outRelease _ o k).trans ?_
  by_cases hk : k = o
  · rw [if_pos hk, hk, hfree]
  · rw [if_neg hk]
    exact (outOwner_set_ne (emit (allocatorAnswered s) (.outAlloc (.ok o))) .enc hk).trans
      (outOwner_congr (by simp) k)

/-- Forgetting what stood in the fresh buffer touches no other buffer (20_memory.md R65). -/
theorem obRead_afterOutAlloc_ne {o k : Nat} (hk : k ≠ o) (i : Nat) :
    obRead (afterOutAlloc s o) k i = obRead s k i := by
  rw [obRead_congr (s := { s with ob := s.ob.forget (obAddr s.cfg o 0) s.cfg.outCap })
    (afterOutAlloc_cfg s o) rfl, obRead_forget, if_neg hk]

/-- Neither the allocation nor the emitting touches another buffer's bytes (42_encoder.md R201). -/
theorem obRead_wireDropped_ne {o k : Nat} (hk : k ≠ o) (ovf : Bool) (frame : List Byte)
    (i : Nat) : obRead (wireDropped s o ovf frame) k i = obRead s k i := by
  rw [wireDropped, messageTooLarge, obRead_congr (respond_cfg _ _) (respond_ob _ _),
    obRead_congr (outRelease_cfg _ _) (outRelease_ob _ _), obRead_emittedMem_ne hk,
    obRead_afterOutAlloc_ne hk]

theorem exec_encFrame_tooLarge {o : Nat} (hr : Ready s)
    (hcheck : s.encOvf = true ∨ s.cfg.hdrLen < s.encN)
    (hlong : Overflows s s.encOvf (stagedFrame s))
    (ha : allocatorAnswer (clearStaging s) = .ok o) (hg : allocatorMayGive s o = true) :
    exec .encFrame s = .next (wireDropped (clearStaging s) o s.encOvf (stagedFrame s)) := by
  rw [exec_encFrame_granted hr hcheck ha hg,
    emitFrame_tooLarge (by simpa [Overflows] using hlong)]
  rfl

/-- Settles O44: both ways of overflowing end in `wireDropped`. -/
theorem encFrameTooLarge : Obligations.EncFrameTooLarge := by
  unfold Obligations.EncFrameTooLarge
  intro s o hr hcause ha hg
  have hcheck : s.encOvf = true ∨ s.cfg.hdrLen < s.encN := hcause.imp_right fun ⟨_, hlen, _⟩ => hlen
  have hlong : Overflows s s.encOvf (stagedFrame s) := hcause.imp_right fun ⟨_, _, hwire⟩ => hwire
  obtain ⟨hn, hovf, hin, hdec, hframes, hcfg, hinputs, hallocs⟩ :=
    stagingTaken_wireDropped s o s.encOvf (stagedFrame s)
  exact ⟨_, exec_encFrame_tooLarge hr hcheck hlong ha hg, wireDropped_trace _ o _ _,
    ready_wireDropped (s := clearStaging s) hr o _ _, hn, hovf, hin,
    outOwner_wireDropped (s := clearStaging s) hg _ _,
    fun k i hk => obRead_wireDropped_ne (s := clearStaging s) hk _ _ i,
    hdec, hframes, hcfg, hinputs, hallocs⟩

end Sys2Proof.Machine
end

section
/-!
PROOFS. One step by the input it meets (30_encoding.md R96, 60_exceptions.md R233, R244): the
dispatch of a word on a ready, a faulted and a hung core, and what every step leaves alone.
-/
namespace Sys2Proof.Machine

variable {s t : State}

/-! ## A command word -/

theorem runWord_of_decode {w : Word} {i : Instr} (h : decode w = .ok i) (s : State) :
    runWord w s = exec i s := by
  rw [runWord, h]

theorem runWord_of_error {w : Word} {e : IllegalWord} (h : decode w = .error e) (s : State) :
    runWord w s = illegalCommand s := by
  rw [runWord, h]

theorem runWord_faulted (hw : s.wait = none) (hf : s.fault ≠ .none) (w : Word) :
    runWord w s = .next (respond s (.faulted s.fault)) := by
  cases hdec : decode w with
  | ok i => exact (runWord_of_decode hdec s).trans (exec_faulted hw hf i)
  | error e => exact (runWord_of_error hdec s).trans (runCommand_faulted hw hf _)

theorem runWord_hung (hw : s.wait ≠ none) (w : Word) :
    runWord w s = .refused .overlappingCommand := by
  cases hdec : decode w with
  | ok i => exact (runWord_of_decode hdec s).trans (exec_hung hw i)
  | error e => exact (runWord_of_error hdec s).trans (runCommand_hung hw _)

/-- The ways a word can answer a next state: a command's end, a raised `ILLEGAL_CMD`, or a faulted
core's response. -/
theorem runWord_cases {w : Word} (h : runWord w s = .next t) :
    (∃ i, exec i s = .next t) ∨ (Ready s ∧ t = raiseFault s .illegalCmd) ∨
      (s.wait = none ∧ s.fault ≠ .none ∧ t = respond s (.faulted s.fault)) := by
  cases hdec : decode w with
  | ok i => exact .inl ⟨i, runWord_of_decode hdec s ▸ h⟩
  | error e =>
    rw [runWord_of_error hdec] at h
    obtain ⟨hr, h⟩ | hfaulted := runCommand_cases h
    · cases h
      exact .inr (.inl ⟨hr, rfl⟩)
    · exact .inr (.inr hfaulted)

/-! ## The next input -/

theorem step_of_action {a : Action} {rest : List Input} (h : s.inputs = .action a :: rest) :
    step s = act a { s with inputs := rest } := by
  simp [step, nextInput, inputTaken, h]

theorem step_idle (h : s.inputs = []) : step s = .next s := by
  simp [step, nextInput, h]

theorem withFetchWord_encode (s : State) (n : Nat) (i : Instr) :
    s.withFetchWord n (encode i).toNat = issueFirst s (encode i) := by
  rw [State.withFetchWord, BitVec.ofNat_toNat, BitVec.setWidth_eq]

/-- Settles O7, by the kinds of input; the word of an instruction decodes to it. -/
theorem stepRunsTheDecodedInstruction : Obligations.StepRunsTheDecodedInstruction := by
  unfold Obligations.StepRunsTheDecodedInstruction
  refine ⟨?_, ?_, fun s a rest hin => step_of_action hin, fun s hin => step_idle hin, ?_⟩
  · intro s w rest i hin hdec
    rw [step_of_command hin, runWord_of_decode hdec]
  · intro s w rest e hin hdec
    rw [step_of_command hin, runWord_of_error hdec]
  · intro s i
    rw [withFetchWord_encode, step_of_command (s := issueFirst s (encode i)) rfl,
      runWord_of_decode (decode_encode i)]
    rfl

/-- Settles O8: every word of a faulted core ends in the one response. -/
theorem faultedInstanceOnlyResponds : Obligations.FaultedInstanceOnlyResponds := by
  unfold Obligations.FaultedInstanceOnlyResponds
  intro s w rest hw hf hin
  rw [step_of_command hin, runWord_faulted (s := { s with inputs := rest }) hw hf]
  rfl

/-! ## What a step leaves alone -/

/-- The core did nothing: from `s` to `t` at most the port, the frame memory and the two ownership
maps have changed. -/
def CoreIdle (s t : State) : Prop :=
  ∃ inputs fb fbOwner obOwner,
    t = { s with inputs := inputs, fb := fb, fbOwner := fbOwner, obOwner := obOwner }

/-- The consumer and the host reach buffers and their owners alone (60_exceptions.md R256, R257). -/
theorem coreIdle_act {a : Action} (ha : a ≠ .hardwareReset) (h : act a s = .next t) :
    CoreIdle s t := by
  cases a with
  | hardwareReset => exact absurd rfl ha
  | consumerWrite k off v =>
    change consumerWrite k off v s = .next t at h
    unfold consumerWrite at h
    split at h
    · obtain ⟨-, rfl⟩ := bufWrite_cases h
      exact ⟨_, _, _, _, rfl⟩
    · cases h
  | consumerRelease k =>
    change consumerRelease k s = .next t at h
    unfold consumerRelease at h
    split at h <;> cases h
    exact ⟨_, _, _, _, rfl⟩
  | hostRelease o =>
    change hostRelease o s = .next t at h
    unfold hostRelease at h
    split at h <;> cases h
    exact ⟨_, _, _, _, rfl⟩

/-- The ways a step can answer a next state, by the input it meets. -/
theorem step_cases (h : step s = .next t) :
    (∃ w, runWord w (inputTaken s) = .next t) ∨
    (s.inputs.head? = some (.action .hardwareReset) ∧ hardwareReset (inputTaken s) = .next t) ∨
    CoreIdle s t := by
  cases hin : s.inputs with
  | nil =>
    rw [step_idle hin] at h
    cases h
    exact .inr (.inr ⟨_, _, _, _, rfl⟩)
  | cons input rest =>
    have htaken : inputTaken s = { s with inputs := rest } := by
      rw [inputTaken, hin, List.tail_cons]
    rw [htaken]
    cases input with
    | command w => exact .inl ⟨w, step_of_command hin ▸ h⟩
    | action a =>
      rw [step_of_action hin] at h
      by_cases ha : a = .hardwareReset
      · subst ha
        exact .inr (.inl ⟨rfl, h⟩)
      · obtain ⟨_, _, _, _, rfl⟩ := coreIdle_act ha h
        exact .inr (.inr ⟨_, _, _, _, rfl⟩)

/-- Settles O10: a faulted core only responds to a word, and the consumer and the host do not reach
`FAULT`. -/
theorem onlyHardwareResetClearsFault : Obligations.OnlyHardwareResetClearsFault := by
  unfold Obligations.OnlyHardwareResetClearsFault
  intro s t hf hreset h
  obtain ⟨w, h⟩ | ⟨hin, -⟩ | ⟨_, _, _, _, rfl⟩ := step_cases h
  · by_cases hw : s.wait = none
    · rw [runWord_faulted (s := inputTaken s) hw hf] at h
      cases h
      rfl
    · rw [runWord_hung (s := inputTaken s) hw] at h
      cases h
  · exact absurd hin hreset
  · rfl

/-- Settles O11: a hung core refuses every word, and the consumer and the host reach neither the
wait nor the registers. -/
theorem hungInstanceStaysStuck : Obligations.HungInstanceStaysStuck := by
  unfold Obligations.HungInstanceStaysStuck
  refine ⟨fun s t hw hreset h => ?_, fun s i hw => exec_hung hw i⟩
  obtain ⟨w, h⟩ | ⟨hin, -⟩ | ⟨_, _, _, _, rfl⟩ := step_cases h
  · rw [runWord_hung (s := inputTaken s) hw] at h
    cases h
  · exact absurd hin hreset
  · exact ⟨rfl, rfl, ⟨rfl, rfl, rfl, rfl, rfl, rfl⟩, rfl, rfl, rfl⟩

/-! ## The configuration -/

theorem exec_keeps_cfg {i : Instr} (h : exec i s = .next t) : t.cfg = s.cfg := by
  by_cases hframe : i = .encFrame
  · subst hframe
    exact (exec_keeps_fb (i := .encFrame) nofun nofun h).1
  · exact (exec_keeps_ob hframe h).1

theorem runWord_keeps_cfg {w : Word} (h : runWord w s = .next t) : t.cfg = s.cfg := by
  obtain ⟨i, h⟩ | ⟨-, rfl⟩ | ⟨-, -, rfl⟩ := runWord_cases h
  · exact exec_keeps_cfg h
  · rfl
  · rfl

theorem hardwareReset_keeps_cfg (h : hardwareReset s = .next t) : t.cfg = s.cfg := by
  obtain ⟨k, -, -, rfl⟩ | ⟨-, rfl⟩ | ⟨-, rfl⟩ := hardwareReset_cases h
  · simp [afterAcquire]
  · simp
  · simp

/-- Settles O57, by the kinds of input a step can meet. -/
theorem configurationNeverChanges : Obligations.ConfigurationNeverChanges := by
  unfold Obligations.ConfigurationNeverChanges
  intro s t h
  obtain ⟨w, h⟩ | ⟨-, h⟩ | ⟨_, _, _, _, rfl⟩ := step_cases h
  · exact runWord_keeps_cfg (s := inputTaken s) h
  · exact hardwareReset_keeps_cfg (s := inputTaken s) h
  · rfl

end Sys2Proof.Machine
end

section
/-!
PROOFS. How a command ends (30_encoding.md R97, R98): with one response, the last thing sent, of the
kind its row has, or in a hang without one.
-/
namespace Sys2Proof.Machine

variable {s t u : State}

/-- The response that ends the command when no fault is raised (30_encoding.md R97, the column
"produced by"), with the values it may carry. -/
inductive Answers (s : State) : Instr → Response → Prop
  | decReset : Answers s .decReset .ack
  | decByte (b : Byte) : Answers s (.decByte b) .ack
  | decEnd : Answers s .decEnd (.status s.decPend)
  | encClear : Answers s .encClear .ack
  | encLoad (b : Byte) : Answers s (.encLoad b) .ack
  | wireFrame {len : Nat} (o : Nat) (hlen : len ≤ s.cfg.outCap) :
    Answers s .encFrame (.encResult .ok len (some o))
  | tooShort : Answers s .encFrame (.encResult .einval 0 none)
  | tooLarge : Answers s .encFrame (.encResult .emsgsize 0 none)

/-- From `s` the command reached `t` by `r`, its only response and the last thing it did: the fault
if the core is faulted then, else an answer of its row. -/
def EndsWith (i : Instr) (s t : State) (r : Response) : Prop :=
  ∃ u, t = respond u r ∧ u.wait = none ∧ responses u = responses s ∧
    (u.fault ≠ .none ∧ r = .faulted u.fault ∨ u.fault = .none ∧ Answers s i r)

/-- From `s` the command reached `t`, where it waits for a collaborator and has not responded
(70_reset_and_hazards.md R280). -/
def HangsIn (s t : State) : Prop := t.wait ≠ none ∧ responses t = responses s

/-- The two ways a command can end. -/
def Ends (i : Instr) (s t : State) : Prop := (∃ r, EndsWith i s t r) ∨ HangsIn s t

theorem ends_respond {i : Instr} {r : Response} (hr : Ready u) (hu : responses u = responses s)
    (ha : Answers s i r) : Ends i s (respond u r) :=
  .inl ⟨r, u, rfl, hr.1, hu, .inr ⟨hr.2, ha⟩⟩

theorem ends_raiseFault (i : Instr) {c : FaultCode} (hc : c ≠ .none) (hw : u.wait = none)
    (hu : responses u = responses s) : Ends i s (raiseFault u c) :=
  .inl ⟨.faulted c, { u with fault := c }, rfl, hw, hu, .inl ⟨hc, rfl⟩⟩

theorem ends_hang (i : Instr) (w : Waiting) (hu : responses u = responses s) :
    Ends i s { u with wait := some w } :=
  .inr ⟨nofun, hu⟩

/-! ## The decoder's commands -/

theorem responses_poolAsked (s : State) (a : AllocAnswer) :
    responses (emit (poolAnswered s) (.acquire a)) = responses s :=
  responses_of_other (e := .acquire a) rfl (by simp)

theorem ends_storeByte (b : Byte) {c : Byte} (hr : Ready u) (hu : responses u = responses s)
    (h : storeByte u c = .next t) : Ends (.decByte b) s t := by
  obtain ⟨-, rfl⟩ | ⟨-, -, rfl⟩ := storeByte_cases h
  · exact ends_respond hr hu (.decByte b)
  · exact ends_respond hr hu (.decByte b)

theorem ends_deliverFrame (b : Byte) (hr : Ready s) (h : deliverFrame s = .next t) :
    Ends (.decByte b) s t := by
  obtain ⟨k, hc, -, -, -, rfl⟩ | ⟨hc, -, rfl⟩ | ⟨-, -, rfl⟩ | ⟨c, hc, -, -, rfl⟩ | ⟨hc, rfl⟩ :=
    deliverFrame_cases h
  · have hrp := ready_askingPool hr (answeredCode_ne_silent hc)
    exact ends_respond (by simpa [Ready, afterDecReset, afterAccept, afterAcquire] using hrp)
      (by simp) (.decByte b)
  · have hrp := ready_askingPool hr (answeredCode_ne_silent hc)
    exact ends_raiseFault _ nofun (by simpa using hrp.1)
      ((responses_poolAsked _ _).trans (responses_askingPool s))
  · exact ends_hang _ .pool ((responses_poolAsked _ _).trans (responses_askingPool s))
  · exact ends_respond (by simpa [Ready, afterDecReset, hc] using hr)
      (responses_deliver s s.decBuf (s.decLen - 2)) (.decByte b)
  · exact .inr ⟨by simp [hc], responses_deliver _ _ _⟩

theorem ends_consumeByte (b : Byte) (hr : Ready s) (h : consumeByte s b = .next t) :
    Ends (.decByte b) s t := by
  obtain ⟨-, -, -, rfl⟩ | ⟨-, -, h⟩ | ⟨-, -, rfl⟩ | ⟨-, -, -, h⟩ | ⟨-, -, -, rfl⟩ |
    ⟨-, -, -, -, h⟩ := consumeByte_cases h
  · exact ends_respond hr rfl (.decByte b)
  · exact ends_deliverFrame b hr h
  · exact ends_respond hr rfl (.decByte b)
  · exact ends_storeByte (u := setEsc s false) b hr rfl h
  · exact ends_respond hr rfl (.decByte b)
  · exact ends_storeByte b hr rfl h

/-! ## ENC_FRAME -/

theorem responses_allocatorAsked (s : State) (a : AllocAnswer) :
    responses (emit (allocatorAnswered s) (.outAlloc a)) = responses s :=
  responses_of_other (e := .outAlloc a) rfl (by simp)

theorem responses_afterOutAlloc (s : State) (o : Nat) :
    responses (afterOutAlloc s o) = responses s :=
  responses_of_other (e := .outAlloc (.ok o)) rfl (by simp [afterOutAlloc])

theorem ready_afterOutAlloc (hr : Ready s) (o : Nat) : Ready (afterOutAlloc s o) := by
  simpa [Ready, afterOutAlloc] using hr

theorem ends_emitFrame {o : Nat} {ovf : Bool} {frame : List Byte} (hr : Ready u)
    (hu : responses u = responses s) (hcfg : u.cfg = s.cfg) :
    Ends .encFrame s (emitFrame u o ovf frame) := by
  obtain ⟨m, hend⟩ | ⟨hfull, -, hend⟩ := emitFrame_cases u o ovf frame
  · rw [hend]
    exact ends_respond hr hu .tooLarge
  · have hfits := emittedWire_fits hfull
    rw [hend, emittedWire_k hfits]
    exact ends_respond hr hu (.wireFrame o (hcfg ▸ hfits))

theorem ends_encodeFrame {ovf : Bool} {n : Nat} {frame : List Byte} (hr : Ready u)
    (hu : responses u = responses s) (hcfg : u.cfg = s.cfg)
    (h : encodeFrame u ovf n frame = .next t) : Ends .encFrame s t := by
  have hasked := fun a => (responses_allocatorAsked u a).trans hu
  obtain ⟨-, -, rfl⟩ | ⟨-, ⟨o, -, -, rfl⟩ | ⟨-, rfl⟩ | ⟨-, rfl⟩⟩ := encodeFrame_cases h
  · exact ends_respond hr hu .tooShort
  · exact ends_emitFrame (ready_afterOutAlloc hr o) ((responses_afterOutAlloc u o).trans hu)
      (by simpa using hcfg)
  · exact ends_raiseFault _ nofun (by simpa using hr.1) (hasked .fail)
  · exact ends_hang _ .outAllocator (hasked .silent)

/-! ## Every command -/

theorem ends_exec {i : Instr} (h : exec i s = .next t) : Ends i s t := by
  obtain hr | ⟨hw, hf, rfl⟩ := exec_next h
  · cases i with
    | decReset =>
      obtain ⟨-, rfl⟩ := resetAndAck_cases (exec_decReset hr ▸ h)
      exact ends_respond hr rfl .decReset
    | decByte b => exact ends_consumeByte b hr (exec_decByte hr b ▸ h)
    | decEnd =>
      rw [exec_decEnd hr] at h
      cases h
      exact ends_respond hr rfl .decEnd
    | encClear =>
      rw [exec_encClear hr] at h
      cases h
      exact ends_respond hr rfl .encClear
    | encLoad b =>
      rw [exec_encLoad hr] at h
      split at h <;> cases h <;> exact ends_respond hr rfl (.encLoad b)
    | encFrame => exact ends_encodeFrame (u := clearStaging s) hr rfl rfl (exec_encFrame hr ▸ h)
  · exact .inl ⟨_, s, rfl, hw, rfl, .inl ⟨hf, rfl⟩⟩

/-- A command that does not wait has responded. -/
theorem exec_endsWith {i : Instr} (h : exec i s = .next t) (hw : t.wait = none) :
    ∃ r, EndsWith i s t r :=
  (ends_exec h).resolve_right fun hang => hang.1 hw

theorem mayRespond_faulted (i : Instr) {c : FaultCode} (hc : c ≠ .none) :
    mayRespond i (.faulted c) = true := by
  cases c with
  | none => exact absurd rfl hc
  | illegalCmd => cases i <;> rfl
  | allocFail => cases i <;> rfl

theorem mayRespond_of_answers {i : Instr} {r : Response} (h : Answers s i r) :
    mayRespond i r = true := by
  cases h <;> rfl

/-- Settles O12: the two ways a command can end. -/
theorem oneResponsePerCommand : Obligations.OneResponsePerCommand := by
  unfold Obligations.OneResponsePerCommand
  intro i s t h
  obtain ⟨r, u, rfl, hw, hu, hr⟩ | hhang := ends_exec h
  · refine .inl ⟨hw, r, ?_, by simp [hu], rfl⟩
    obtain ⟨hf, rfl⟩ | ⟨-, ha⟩ := hr
    · exact mayRespond_faulted i hf
    · exact mayRespond_of_answers ha
  · exact .inr hhang

/-! ## The response as the host gets it -/

/-- Settles O60: the record of a fault, and of each answer a row has. -/
theorem responseCodes : Obligations.ResponseCodes := by
  unfold Obligations.ResponseCodes
  refine ⟨⟨rfl, rfl, rfl⟩, ⟨rfl, rfl, rfl⟩, ?_, ?_, ?_⟩
  · intro c
    cases c <;> decide
  · intro e
    cases e <;> decide
  · intro i s t h hw
    obtain ⟨r, u, rfl, -, -, ⟨hf, rfl⟩ | ⟨hf, ha⟩⟩ := exec_endsWith h hw
    · exact ⟨_, rfl, by simp [Response.record, bareRecord, hf]⟩
    · refine ⟨r, rfl, ?_⟩
      cases ha <;> simp [Response.record, bareRecord, EncStatus.bits, hf]

/-! ## The width of a length -/

theorem outCap_pos (p : Params) : 0 < p.outCap := by
  unfold Params.outCap
  omega

/-- `LEN_W` is the least width for what it must hold (00_scope.md R9). -/
theorem lt_two_pow_iff_lenW_le (p : Params) (w : Nat) :
    max p.cap (max p.outCap p.encInMax) < 2 ^ w ↔ p.lenW ≤ w := by
  have hne : max p.cap (max p.outCap p.encInMax) ≠ 0 := by
    have := outCap_pos p
    omega
  rw [← Nat.log2_lt hne, Params.lenW, Nat.succ_le_iff]

theorem sizes_lt_two_pow_lenW (p : Params) :
    p.cap < 2 ^ p.lenW ∧ p.outCap < 2 ^ p.lenW ∧ p.encInMax < 2 ^ p.lenW := by
  simpa only [max_lt_iff] using (lt_two_pow_iff_lenW_le p p.lenW).mpr le_rfl

/-- Settles O56: the invariant bounds the counters by the capacities, and a wire form that ends in
`OK` fits the output buffer. -/
theorem countersFitLenW : Obligations.CountersFitLenW := by
  unfold Obligations.CountersFitLenW
  refine ⟨fun p => ?_, fun s hs => ?_, fun i s t est len oh h hw hlast => ?_⟩
  · exact ⟨(lt_two_pow_iff_lenW_le p _).mpr le_rfl, fun w => (lt_two_pow_iff_lenW_le p w).mp⟩
  · obtain ⟨hcap, -, hin⟩ := sizes_lt_two_pow_lenW s.cfg
    exact ⟨hs.lenCap.trans_lt hcap, hs.stagedFits.trans_lt hin⟩
  · obtain ⟨-, hout, -⟩ := sizes_lt_two_pow_lenW s.cfg
    obtain ⟨r, u, rfl, -, -, ⟨-, rfl⟩ | ⟨-, ha⟩⟩ := exec_endsWith h hw
    · simp at hlast
    · obtain rfl : r = .encResult est len oh := by simpa using hlast
      cases ha with
      | wireFrame o hlen => exact hlen.trans_lt hout
      | tooShort => exact Nat.two_pow_pos _
      | tooLarge => exact Nat.two_pow_pos _

end Sys2Proof.Machine
end

section
/-!
PROOFS. Hardware reset (70_reset_and_hazards.md section 1): by the pool's answer, the state it
leaves, and that the state after reset meets the invariant.
-/
namespace Sys2Proof.Machine

variable {s : State}

/-! ## By the pool's answer -/

/-- The registers and the wait as the reset leaves them before its `Acquire()`, beside what it does
not reach: the configuration, the output side, the staged bytes and the inputs (log 15). -/
structure PoweredOn (s t : State) : Prop where
  wait : t.wait = none
  decPend : t.decPend = 0
  encN : t.encN = 0
  encOvf : t.encOvf = false
  encIn : t.encIn = s.encIn
  cfg : t.cfg = s.cfg
  outputSide : SameOutputSide s t
  inputs : t.inputs = s.inputs
  codes : t.codes = s.codes
  responses : responses t = responses s
  deliveries : deliveries t = deliveries s

/-- The state after a hardware reset whose `Acquire()` answered `h` (70_reset_and_hazards.md
R270). -/
def afterReset (s : State) (h : Nat) : State :=
  afterDecReset { afterAcquire (powerOn s) h with decBuf := h }

theorem poolMayGive_powerOn {h : Nat} (hfit : h < 2 ^ s.cfg.bufIdW) :
    poolMayGive (powerOn s) h = true :=
  (poolMayGive_iff _ _).mpr ⟨hfit, rfl⟩

theorem hardwareReset_granted {h : Nat} (hlt : tagOffset < s.cfg.bufSize)
    (hp : poolAnswer (powerOn s) = .ok h) (hfit : h < 2 ^ s.cfg.bufIdW) :
    hardwareReset s = .next (afterReset s h) := by
  rw [hardwareReset, acquire_eq, hp]
  simp only [poolMayGive_powerOn hfit, if_true]
  exact decReset_of_lt (by simpa [afterAcquire] using hlt)

/-- The state after a hardware reset whose `Acquire()` failed (70_reset_and_hazards.md R272). -/
def afterFailedReset (s : State) : State :=
  { emit (poolAnswered (powerOn s)) (.acquire .fail) with fault := .allocFail }

theorem hardwareReset_failed (hp : poolAnswer (powerOn s) = .fail) :
    hardwareReset s = .next (afterFailedReset s) := by
  rw [hardwareReset, acquire_eq, hp]
  rfl

theorem poweredOn_afterReset (s : State) (h : Nat) : PoweredOn s (afterReset s h) := by
  constructor
  case responses =>
    exact responses_of_other (e := .acquire (.ok h)) rfl (by simp [afterReset, afterAcquire])
  case deliveries =>
    exact deliveries_of_other (e := .acquire (.ok h)) rfl (by simp [afterReset, afterAcquire])
  all_goals simp [SameOutputSide, afterReset, afterDecReset, afterAcquire]

theorem poweredOn_afterFailedReset (s : State) : PoweredOn s (afterFailedReset s) := by
  constructor
  case responses => exact responses_poolAsked (powerOn s) .fail
  case deliveries => exact deliveries_poolAsked (powerOn s) .fail
  all_goals simp [SameOutputSide, afterFailedReset]

theorem frameOwner_afterFailedReset (s : State) (k : Nat) :
    frameOwner (afterFailedReset s) k = none :=
  frameOwner_congr (s := powerOn s) (by simp [afterFailedReset]) k

/-- The fresh buffer is the decoder's, every other one the pool's (70_reset_and_hazards.md R271). -/
theorem frameOwner_afterReset (s : State) (h k : Nat) :
    frameOwner (afterReset s h) k = if k = h then some .dec else none := by
  have hset : frameOwner (afterReset s h) k = frameOwner (setFrameOwner (powerOn s) h .dec) k :=
    frameOwner_congr (by simp [afterReset, afterDecReset, afterAcquire]) k
  rw [hset]
  split
  · subst_vars
    exact frameOwner_set_self _ _ _
  · exact frameOwner_set_ne _ _ ‹_›

/-- The tag of the fresh buffer is the only frame-buffer byte with a value (log 15). -/
theorem fbRead_afterReset {h : Nat} (hlt : tagOffset < s.cfg.bufSize) (k off : Nat) :
    fbRead (afterReset s h) k off =
      if k = h ∧ off = tagOffset then some s.cfg.tagInit else none := by
  have hcfg : (afterAcquire (powerOn s) h).cfg = s.cfg := by simp [afterAcquire]
  have hempty : fbRead { afterAcquire (powerOn s) h with decBuf := h } k off = none := by
    unfold fbRead
    split <;> rfl
  rw [afterReset, fbRead_afterDecReset (hcfg ▸ hlt), hempty, hcfg]

/-- Settles O14: `DecReset()` runs on the one buffer the pool has given. -/
theorem hardwareResetGranted : Obligations.HardwareResetGranted := by
  unfold Obligations.HardwareResetGranted
  intro s h h8 hp hfit
  obtain ⟨hwait, hpend, hn, hovf, hin, hcfg, hout, hinputs, hcodes, hresp, hdel⟩ :=
    poweredOn_afterReset s h
  have hfault : (afterReset s h).fault = .none := by simp [afterReset, afterDecReset, afterAcquire]
  exact ⟨_, hardwareReset_granted h8 hp hfit, hfault, hwait, rfl, ⟨rfl, rfl, rfl, rfl⟩, hpend, hn,
    hovf, frameOwner_afterReset s h, fbRead_afterReset h8, hresp, hdel, hcfg, hin, hout, hinputs,
    hcodes⟩

/-- Settles O15: the fault is set in the state in which the pool was asked, and from then on it
answers every word. -/
theorem hardwareResetFailed : Obligations.HardwareResetFailed := by
  unfold Obligations.HardwareResetFailed
  intro s hp
  obtain ⟨hwait, hpend, hn, hovf, -, -, -, -, -, hresp, hdel⟩ := poweredOn_afterFailedReset s
  exact ⟨_, hardwareReset_failed hp, rfl, hwait, hpend, hn, hovf,
    frameOwner_afterFailedReset s, hresp, hdel, fun w => runWord_faulted hwait nofun w⟩

/-! ## The state after reset -/

theorem frameOwner_reset (k : Nat) :
    frameOwner State.reset k = if 0 = k then some .dec else none := rfl

theorem fbRead_reset_tag : fbRead State.reset 0 tagOffset = some Config.tagInit := rfl

/-- Settles O13, by evaluation. -/
theorem resetRegisterValues : Obligations.ResetRegisterValues :=
  ⟨rfl, ⟨rfl, rfl, rfl, rfl⟩, rfl, rfl, rfl, rfl, frameOwner_reset 0, fbRead_reset_tag⟩

/-- Settles O53: the decoder owns the one buffer, which holds its tag and no byte of a frame. -/
theorem resetMeetsInvariant : Obligations.ResetMeetsInvariant where
  cfgWf := by decide
  fbWf := reset_memory_wf.1
  obWf := reset_memory_wf.2
  fbOwnerSorted := by decide
  obOwnerSorted := by decide
  lenCap := Nat.zero_le _
  oneFlag := by decide
  discardFull := nofun
  stagedFits := Nat.zero_le _
  stagingSize := rfl
  ovfFull := nofun
  bufOwned _ _ := frameOwner_reset 0
  soleBuffer h hh := by
    rw [frameOwner_reset] at hh
    by_contra hne
    simp [show 0 ≠ h from fun h0 => hne h0.symm] at hh
  handleFits h w hh := by
    rw [frameOwner_reset] at hh
    split at hh
    · subst_vars
      decide
    · cases hh
  outHandleFits _ _ := nofun
  noEncBuffer _ := nofun
  hungHealthy _ := rfl
  tagSet _ := fbRead_reset_tag
  assembled _ := ⟨[], rfl, rfl⟩

end Sys2Proof.Machine
end

section
/-!
PROOFS. Who may touch what (10_state.md R46, R48, 60_exceptions.md section 7): the decoder's and the
encoder's commands, the pool's duty, and the buffers of the consumer and the host.
-/
namespace Sys2Proof.Machine

variable {s t : State}

/-! ## The decoder's commands leave the encoder alone -/

/-- The staging, the output buffers and the allocator behind them are the same in both states. -/
def EncoderUntouched (s t : State) : Prop := SameStaging s t ∧ SameOutputSide s t

theorem encoderUntouched_afterDecReset (s : State) :
    EncoderUntouched s (respond (afterDecReset s) .ack) :=
  ⟨⟨rfl, rfl, rfl⟩, rfl, rfl, rfl⟩

theorem encoderUntouched_storeByte {b : Byte} (h : storeByte s b = .next t) :
    EncoderUntouched s t := by
  obtain ⟨-, rfl⟩ | ⟨-, -, rfl⟩ := storeByte_cases h <;> exact ⟨⟨rfl, rfl, rfl⟩, rfl, rfl, rfl⟩

theorem encoderUntouched_deliverFrame (h : deliverFrame s = .next t) : EncoderUntouched s t := by
  obtain ⟨k, -, -, -, -, rfl⟩ | ⟨-, -, rfl⟩ | ⟨-, -, rfl⟩ | ⟨c, -, -, -, rfl⟩ | ⟨-, rfl⟩ :=
    deliverFrame_cases h <;>
    simp [EncoderUntouched, SameStaging, SameOutputSide, afterDecReset, afterAccept, afterAcquire,
      askingPool]

theorem encoderUntouched_consumeByte {b : Byte} (h : consumeByte s b = .next t) :
    EncoderUntouched s t := by
  obtain ⟨-, -, -, rfl⟩ | ⟨-, -, h⟩ | ⟨-, -, rfl⟩ | ⟨-, -, -, h⟩ | ⟨-, -, -, rfl⟩ |
    ⟨-, -, -, -, h⟩ := consumeByte_cases h
  · exact encoderUntouched_afterDecReset s
  · exact encoderUntouched_deliverFrame h
  · exact ⟨⟨rfl, rfl, rfl⟩, rfl, rfl, rfl⟩
  · exact encoderUntouched_storeByte (s := setEsc s false) h
  · exact ⟨⟨rfl, rfl, rfl⟩, rfl, rfl, rfl⟩
  · exact encoderUntouched_storeByte h

theorem encoderUntouched_exec {i : Instr}
    (hi : i = .decReset ∨ (∃ b, i = .decByte b) ∨ i = .decEnd) (h : exec i s = .next t) :
    EncoderUntouched s t := by
  obtain hr | ⟨-, -, rfl⟩ := exec_next h
  · obtain rfl | ⟨b, rfl⟩ | rfl := hi
    · obtain ⟨-, rfl⟩ := resetAndAck_cases (exec_decReset hr ▸ h)
      exact encoderUntouched_afterDecReset s
    · exact encoderUntouched_consumeByte (exec_decByte hr b ▸ h)
    · rw [exec_decEnd hr] at h
      cases h
      exact ⟨⟨rfl, rfl, rfl⟩, rfl, rfl, rfl⟩
  · exact ⟨⟨rfl, rfl, rfl⟩, rfl, rfl, rfl⟩

theorem decoderUntouched_exec {i : Instr}
    (hi : i = .encClear ∨ (∃ b, i = .encLoad b) ∨ i = .encFrame) (h : exec i s = .next t) :
    DecoderUntouched s t := by
  obtain hr | ⟨-, -, rfl⟩ := exec_next h
  · obtain rfl | ⟨b, rfl⟩ | rfl := hi
    · rw [exec_encClear hr] at h
      cases h
      exact (decoderUntouched_clearStaging s).trans (decoderUntouched_respond _ _)
    · exact decoderUntouched_encLoad hr h
    · exact (decoderUntouched_clearStaging s).trans
        (decoderUntouched_encodeFrame (exec_encFrame hr ▸ h))
  · exact decoderUntouched_respond s _

/-- Settles O36: each unit's commands leave the other unit alone. -/
theorem unitsShareNoState : Obligations.UnitsShareNoState := by
  unfold Obligations.UnitsShareNoState
  refine ⟨fun i s t hi h => encoderUntouched_exec hi h, fun i s t hi h => ?_⟩
  obtain ⟨-, hdec, hframes, -⟩ := decoderUntouched_exec hi h
  exact ⟨hdec, hframes⟩

/-! ## The pool's duty -/

/-- A handle the pool may not give is refused (60_exceptions.md R255; log 6). -/
theorem deliverFrame_unlawful {h : Nat} (hc : answeredCode (consumerAnswer s) = some 0)
    (hp : poolAnswer (askingPool s) = .ok h) (hg : poolMayGive (askingPool s) h = false) :
    deliverFrame s = .refused (.notOwnedByPool h) := by
  rw [deliverFrame_accepted hc, acceptedDelivery, handOver_deliver, acquire_eq]
  simp [hp, hg]

/-- The buffer a healthy decoder fills is not the consumer's (20_memory.md R76). -/
theorem ne_decBuf_of_consumer (hs : MachineInv s) (hr : Ready s) {h : Nat}
    (hown : frameOwner s h = some .consumer) : h ≠ s.decBuf := by
  rintro rfl
  rw [hs.bufOwned (by simp [hr.2]) (by simp [hr.1])] at hown
  cases hown

theorem consumer_keeps_askingPool {h : Nat} (hne : h ≠ s.decBuf)
    (hown : frameOwner s h = some .consumer) : frameOwner (askingPool s) h = some .consumer := by
  rw [frameOwner_askingPool, if_neg hne, hown]

/-- The pool gives nobody's buffers only, so the one acquired is not the consumer's. -/
theorem consumer_keeps_afterAccept {h k : Nat} (hne : h ≠ s.decBuf)
    (hg : poolMayGive (askingPool s) k = true) (hown : frameOwner s h = some .consumer) :
    frameOwner (afterAccept s k) h = some .consumer := by
  obtain ⟨-, hfree⟩ := (poolMayGive_iff _ _).mp hg
  have hasked := consumer_keeps_askingPool hne hown
  have hk : h ≠ k := by
    rintro rfl
    rw [hfree] at hasked
    cases hasked
  rw [frameOwner_afterAccept, if_neg hk, if_neg hne, hown]

theorem consumer_keeps_deliverFrame {h : Nat} (hne : h ≠ s.decBuf)
    (hown : frameOwner s h = some .consumer) (hd : deliverFrame s = .next t) :
    frameOwner t h = some .consumer := by
  obtain ⟨k, -, -, hg, -, rfl⟩ | ⟨-, -, rfl⟩ | ⟨-, -, rfl⟩ | ⟨c, -, -, -, rfl⟩ | ⟨-, rfl⟩ :=
    deliverFrame_cases hd
  · rw [frameOwner_congr (s := afterAccept s k) (by simp [afterDecReset])]
    exact consumer_keeps_afterAccept hne hg hown
  · rw [frameOwner_congr (s := askingPool s) (by simp)]
    exact consumer_keeps_askingPool hne hown
  · rw [frameOwner_congr (s := askingPool s) (by simp)]
    exact consumer_keeps_askingPool hne hown
  · rwa [frameOwner_congr (s := s) (by simp [afterDecReset])]
  · rwa [frameOwner_congr (s := s) (by simp)]

theorem DecoderUntouched.fbOwner_eq (h : DecoderUntouched s t) : t.fbOwner = s.fbOwner := by
  obtain ⟨-, howner, -⟩ := h.frameSide
  exact howner

theorem storeByte_keeps_fbOwner {b : Byte} (h : storeByte s b = .next t) :
    t.fbOwner = s.fbOwner := by
  obtain ⟨-, rfl⟩ | ⟨-, -, rfl⟩ := storeByte_cases h <;> rfl

/-- Frame buffers change hands at a delivery alone (41_decoder.md R146). -/
theorem exec_frameOwner {i : Instr} (h : exec i s = .next t) :
    t.fbOwner = s.fbOwner ∨ (Ready s ∧ deliverFrame s = .next t) := by
  obtain hr | ⟨-, -, rfl⟩ := exec_next h
  · cases i with
    | decReset =>
      obtain ⟨-, rfl⟩ := resetAndAck_cases (exec_decReset hr ▸ h)
      exact .inl rfl
    | decByte b =>
      obtain ⟨-, -, -, rfl⟩ | ⟨-, -, h⟩ | ⟨-, -, rfl⟩ | ⟨-, -, -, h⟩ | ⟨-, -, -, rfl⟩ |
        ⟨-, -, -, -, h⟩ := consumeByte_cases (exec_decByte hr b ▸ h)
      · exact .inl rfl
      · exact .inr ⟨hr, h⟩
      · exact .inl rfl
      · exact .inl (storeByte_keeps_fbOwner (s := setEsc s false) h)
      · exact .inl rfl
      · exact .inl (storeByte_keeps_fbOwner h)
    | decEnd => rw [exec_decEnd hr] at h; cases h; exact .inl rfl
    | encClear => exact .inl (decoderUntouched_exec (.inl rfl) h).fbOwner_eq
    | encLoad b => exact .inl (decoderUntouched_exec (.inr (.inl ⟨b, rfl⟩)) h).fbOwner_eq
    | encFrame => exact .inl (decoderUntouched_exec (.inr (.inr rfl)) h).fbOwner_eq
  · exact .inl rfl

/-- Settles O58: `Acquire()` refuses a handle the pool may not give, and a delivery moves the
decoder's own buffer and a free one. -/
theorem poolDutyIsPremise : Obligations.PoolDutyIsPremise := by
  unfold Obligations.PoolDutyIsPremise
  refine ⟨fun s h hr hw hc hp hg => ?_, fun i s t h hs hexec hown => ?_⟩
  · exact (exec_flag_delivers hr hw).trans (deliverFrame_unlawful hc hp hg)
  · obtain hsame | ⟨hr, hd⟩ := exec_frameOwner hexec
    · exact (frameOwner_congr hsame h).trans hown
    · exact consumer_keeps_deliverFrame (ne_decBuf_of_consumer hs hr hown) hown hd

/-! ## The consumer's and the host's buffers -/

/-- Settles O59, by the owner each action asks for. -/
theorem partiesUseOnlyTheirBuffers : Obligations.PartiesUseOnlyTheirBuffers := by
  unfold Obligations.PartiesUseOnlyTheirBuffers
  refine ⟨?_, ?_, ?_, ?_, ?_⟩
  · intro s h off v hown hoff
    exact (if_pos hown).trans (bufWrite_of_lt s h v hoff)
  · intro s h off v hown
    exact ⟨if_neg hown, if_neg hown⟩
  · intro s h hown
    exact ⟨poolTakesBack s h, if_pos hown, frameOwner_poolTakesBack s h, rfl⟩
  · intro s o hown
    exact ⟨_, if_pos hown, Assoc.lookup_remove_one s.obOwner o, rfl⟩
  · intro s o hown
    exact if_neg hown

end Sys2Proof.Machine
end

section
/-!
PROOFS. Finite facts: how many words are legal (30_encoding.md R95), the assembler's examples (R102),
and the CRC table and check value (40_crc.md R122, R123, R128).
-/
namespace Sys2Proof.Machine

/-! ## The legal words are the instructions' words -/

/-- The 256 bytes. -/
def allBytes : List Byte := (List.finRange 256).map BitVec.ofFin

theorem mem_allBytes (b : Byte) : b ∈ allBytes :=
  List.mem_map.mpr ⟨b.toFin, List.mem_finRange _, rfl⟩

theorem nodup_allBytes : allBytes.Nodup :=
  (List.nodup_finRange 256).map fun _ _ h => congrArg BitVec.toFin h

/-- Every instruction once: four without operand, two with a byte (30_encoding.md R94). -/
def allInstrs : List Instr :=
  .decReset :: .decEnd :: .encClear :: .encFrame ::
    (allBytes.map Instr.decByte ++ allBytes.map Instr.encLoad)

theorem length_allInstrs : allInstrs.length = 516 := by
  simp [allInstrs, allBytes]

theorem mem_allInstrs (i : Instr) : i ∈ allInstrs := by
  cases i <;> simp [allInstrs, mem_allBytes]

theorem nodup_allInstrs : allInstrs.Nodup := by
  have hbytes := nodup_allBytes.map (f := Instr.decByte) fun _ _ h => by injection h
  have hloads := nodup_allBytes.map (f := Instr.encLoad) fun _ _ h => by injection h
  simp [allInstrs, List.nodup_append, hbytes, hloads]

theorem encode_injective : Function.Injective encode := fun i j h => by
  have hi := decode_encode i
  rw [h, decode_encode j] at hi
  injection hi with hi
  exact hi.symm

/-- The number of an instruction's word. -/
def wordNumber (i : Instr) : Nat := (encode i).toNat

theorem wordNumber_injective : Function.Injective wordNumber :=
  fun _ _ h => encode_injective (BitVec.eq_of_toNat_eq h)

theorem mem_legal_iff (n : Nat) :
    n ∈ (List.range 65536).filter (fun n => legalWord (BitVec.ofNat 16 n)) ↔
      n ∈ allInstrs.map wordNumber := by
  rw [List.mem_filter, List.mem_range, ← exists_decode_iff_legalWord]
  simp only [decode_eq_ok_iff, List.mem_map, mem_allInstrs, true_and]
  constructor
  · rintro ⟨hlt, i, hi⟩
    exact ⟨i, by rw [wordNumber, ← hi, BitVec.toNat_ofNat, Nat.mod_eq_of_lt hlt]⟩
  · rintro ⟨i, rfl⟩
    exact ⟨(encode i).isLt, i, by rw [wordNumber, BitVec.ofNat_toNat, BitVec.setWidth_eq]⟩

/-- Settles O4: the legal words are the words of the 516 instructions. -/
theorem legalWordCount : Obligations.LegalWordCount := by
  unfold Obligations.LegalWordCount
  have hperm := (List.perm_ext_iff_of_nodup (List.nodup_range.filter _)
    (nodup_allInstrs.map wordNumber_injective)).mpr mem_legal_iff
  rw [hperm.length_eq, List.length_map, length_allInstrs]

/-! ## By evaluation -/

/-- Settles O6, by evaluation. -/
theorem assemblerExamples : Obligations.AssemblerExamples := by
  unfold Obligations.AssemblerExamples
  decide

/-- Settles O16: the entries are compared byte by byte in `crcTable_eq_crcTableGen`. -/
theorem crcTableIsGenerated : Obligations.CrcTableIsGenerated :=
  ⟨crcTable_eq_crcTableGen, by decide⟩

/-- Settles O19, by evaluation. -/
theorem crcCheckValue : Obligations.CrcCheckValue := by
  unfold Obligations.CrcCheckValue
  decide

end Sys2Proof.Machine
end
